-- ==== Sys2Proof/Word.lean ====
section
/-!
DEFINITION. The two word types of the machine.

Every value of the machine is unsigned (00_scope.md R8) and bit 0 is the least significant bit.
-/
namespace Sys2Proof

/-- A byte: a cell of memory, a general register, a timer (00_scope.md R6). -/
abbrev Byte := BitVec 8

/-- A 16-bit word: an opcode, `pc`, `I`, a slot of the call stack (00_scope.md R6). -/
abbrev Word := BitVec 16

end Sys2Proof
end

