-- ==== Sys2Proof/Config.lean ====
section
/-!
DEFINITION. What this hardware fixes (00_scope.md R6), and the free values the host supplies to each step.
-/
namespace Sys2Proof

/-- `PROG_BASE`: where the ROM is loaded, and the reset value of `pc` (00_scope.md R6). -/
@[simp] abbrev Config.progBase : Nat := 512

/-- `ROM_MAX`: the largest ROM, 4096 - 512 bytes (00_scope.md R6). -/
@[simp] abbrev Config.romMax : Nat := 3584

/-- DESIGN CHOICE (log entry 1), safe: the call of `set_keys`, if any, that the host makes after the step with
this number; with `none` it presents the same vector again (70_reset_and_hazards.md R233). A FREE VALUE: the
rules hold for every vector the host may choose (10_state.md R32), so it has no body. -/
opaque Config.hostSetKeys : Nat → Option (BitVec 16)

/-- DESIGN CHOICE (log entry 1), safe: the random byte the host supplies to the step with this number.
A FREE VALUE: the rules hold for every value of `rand` (10_state.md R32), so it has no body. -/
opaque Config.hostRand : Nat → Byte

end Sys2Proof
end

