-- ==== Sys2Proof/Syntax.lean ====
section
/-!
DEFINITION. The 34 instructions: one constructor per row of spec/opcode_table.json, in the table's order.

A word that matches no row is UNKNOWN (30_encoding.md R95). It is no row of the table and so no
constructor: `decode` rejects it by name, and `step` gives it the effect R95 states.
-/
namespace Sys2Proof

/-- The index of a general register, `X` or `Y` of 30_encoding.md R91: all sixteen are legal (R93). -/
abbrev Reg := Fin 16

/-- The 12-bit immediate `NNN` (30_encoding.md R91). -/
abbrev Addr12 := BitVec 12

/-- The 34 instructions (30_encoding.md R94), named after their mnemonics. -/
inductive Instr where
  /-- 00E0, `CLS`: clear the framebuffer (44_display.md R170). -/
  | cls
  /-- 00EE, `RET`: return from subroutine (40_flow.md R120). -/
  | ret
  /-- 1NNN, `JP NNN`: jump (40_flow.md R121). -/
  | jp (nnn : Addr12)
  /-- 2NNN, `CALL NNN`: call subroutine (40_flow.md R122). -/
  | call (nnn : Addr12)
  /-- 3XNN, `SE Vx, NN`: skip if equal to the immediate (41_skip.md R131). -/
  | seImm (x : Reg) (nn : Byte)
  /-- 4XNN, `SNE Vx, NN`: skip if different from the immediate (41_skip.md R132). -/
  | sneImm (x : Reg) (nn : Byte)
  /-- 5XY0, `SE Vx, Vy`: skip if the registers are equal (41_skip.md R133). -/
  | seReg (x y : Reg)
  /-- 6XNN, `LD Vx, NN`: load immediate (42_load_alu.md R141). -/
  | ldImm (x : Reg) (nn : Byte)
  /-- 7XNN, `ADD Vx, NN`: add immediate (42_load_alu.md R142). -/
  | addImm (x : Reg) (nn : Byte)
  /-- 8XY0, `LD Vx, Vy`: register copy (42_load_alu.md R143). -/
  | ldReg (x y : Reg)
  /-- 8XY1, `OR Vx, Vy` (42_load_alu.md R144). -/
  | orReg (x y : Reg)
  /-- 8XY2, `AND Vx, Vy` (42_load_alu.md R145). -/
  | andReg (x y : Reg)
  /-- 8XY3, `XOR Vx, Vy` (42_load_alu.md R146). -/
  | xorReg (x y : Reg)
  /-- 8XY4, `ADD Vx, Vy`: add with carry out (42_load_alu.md R147). -/
  | addReg (x y : Reg)
  /-- 8XY5, `SUB Vx, Vy`: subtract, not-borrow out (42_load_alu.md R148). -/
  | sub (x y : Reg)
  /-- 8XY6, `SHR Vx, Vy`: shift V[Y] right by one, into V[Y] and V[X] (42_load_alu.md R149). -/
  | shr (x y : Reg)
  /-- 8XY7, `SUBN Vx, Vy`: reverse subtract, not-borrow out (42_load_alu.md R150). -/
  | subn (x y : Reg)
  /-- 8XYE, `SHL Vx, Vy`: shift V[Y] left by one, into V[Y] and V[X] (42_load_alu.md R151). -/
  | shl (x y : Reg)
  /-- 9XY0, `SNE Vx, Vy`: skip if the registers differ (41_skip.md R134). -/
  | sneReg (x y : Reg)
  /-- ANNN, `LD I, NNN`: load the address register (43_index_memory.md R160). -/
  | ldI (nnn : Addr12)
  /-- BNNN, `JP V0, NNN`: jump with offset V[0] (40_flow.md R123). -/
  | jpV0 (nnn : Addr12)
  /-- CXNN, `RND Vx, NN`: masked random byte (42_load_alu.md R152). -/
  | rnd (x : Reg) (nn : Byte)
  /-- DXYN, `DRW Vx, Vy, N`: draw a sprite of `n` rows (44_display.md R171). -/
  | drw (x y : Reg) (n : Fin 16)
  /-- EX9E, `SKP Vx`: skip if key pressed (41_skip.md R135). -/
  | skp (x : Reg)
  /-- EXA1, `SKNP Vx`: skip if key not pressed (41_skip.md R136). -/
  | sknp (x : Reg)
  /-- FX07, `LD Vx, DT`: read the delay timer (45_timer_key.md R180). -/
  | ldVxDT (x : Reg)
  /-- FX0A, `LD Vx, K`: wait for a key (45_timer_key.md R183). -/
  | ldVxK (x : Reg)
  /-- FX15, `LD DT, Vx`: set the delay timer (45_timer_key.md R181). -/
  | ldDTVx (x : Reg)
  /-- FX18, `LD ST, Vx`: set the sound timer (45_timer_key.md R182). -/
  | ldSTVx (x : Reg)
  /-- FX1E, `ADD I, Vx`: add a register to the address register (43_index_memory.md R161). -/
  | addI (x : Reg)
  /-- FX29, `LD F, Vx`: address of a font glyph (43_index_memory.md R162). -/
  | ldF (x : Reg)
  /-- FX33, `LD B, Vx`: store decimal digits (43_index_memory.md R163). -/
  | ldB (x : Reg)
  /-- FX55, `LD [I], Vx`: store all sixteen registers; `x` is kept but ignored (43_index_memory.md R165). -/
  | storeRegs (x : Reg)
  /-- FX65, `LD Vx, [I]`: load all sixteen registers; `x` is kept but ignored (43_index_memory.md R166). -/
  | loadRegs (x : Reg)
  deriving DecidableEq, Repr

end Sys2Proof
end

