-- ==== Sys2Proof/Decode.lean ====
section
/-!
DEFINITION. Byte order (20_memory.md R65), the decoder (30_encoding.md R91, R94, R95, R96) and the encoder
written from the same table.
-/
namespace Sys2Proof

/-! ### Bytes and words -/

/-- Zero extension of a byte to 16 bits, `zext_16` of 00_scope.md R9. -/
def Byte.toWord (b : Byte) : Word := b.setWidth 16

/-- `hi || lo`: the byte at the lower address is the high byte (20_memory.md R64, R65). -/
def Word.ofBytes (hi lo : Byte) : Word := (hi ++ lo : BitVec (8 + 8))

/-- Bits 15 to 8. -/
def Word.hiByte (w : Word) : Byte := w.extractLsb' 8 8

/-- Bits 7 to 0. -/
def Word.loByte (w : Word) : Byte := w.extractLsb' 0 8

/-! ### The decoder -/

/-- Why bytes are no instruction. All but `truncated` are the six kinds of UNKNOWN word of
30_encoding.md R95, whose effect is `execUnknown`; `truncated` cannot arise in a step, because the fetch
reads both bytes or latches a fault (20_memory.md R64). -/
inductive Reject where
  /-- Fewer than two bytes. -/
  | truncated
  /-- 0x0NNN other than 0x00E0 and 0x00EE (R95, R97). -/
  | family0
  /-- 0x5XYN with N not 0 (R95, R96). -/
  | family5
  /-- 0x8XYN with N in 8 to D or F (R95). -/
  | family8
  /-- 0x9XYN with N not 0 (R95, R96). -/
  | family9
  /-- 0xEXNN with NN neither 0x9E nor 0xA1 (R95). -/
  | familyE
  /-- 0xFXNN with NN none of the nine sub-opcodes (R95). -/
  | familyF
  deriving DecidableEq, Repr

/-- `OP`, bits 15:12 (R91). -/
def fieldOP (w : Word) : BitVec 4 := w.extractLsb' 12 4

/-- `X`, bits 11:8 (R91). -/
def fieldX (w : Word) : Reg := (w.extractLsb' 8 4).toFin

/-- `Y`, bits 7:4 (R91). -/
def fieldY (w : Word) : Reg := (w.extractLsb' 4 4).toFin

/-- `N`, bits 3:0 (R91). -/
def fieldN (w : Word) : Fin 16 := (w.extractLsb' 0 4).toFin

/-- `NN`, bits 7:0 (R91). -/
def fieldNN (w : Word) : Byte := w.extractLsb' 0 8

/-- `NNN`, bits 11:0 (R91). -/
def fieldNNN (w : Word) : Addr12 := w.extractLsb' 0 12

/-- Family 0: all sixteen bits are compared (R94, R96). -/
def decode0 (w : Word) : Except Reject Instr :=
  if w = 0x00E0 then .ok .cls
  else if w = 0x00EE then .ok .ret
  else .error .family0

/-- Families 5 and 9: the low nibble must be 0 (R96). -/
def decodeXY0 (w : Word) (i : Reg → Reg → Instr) (r : Reject) : Except Reject Instr :=
  if fieldN w = 0 then .ok (i (fieldX w) (fieldY w)) else .error r

/-- Family 8: the operation is the low nibble (R94). -/
def decode8 (w : Word) : Except Reject Instr :=
  if fieldN w = 0x0 then .ok (.ldReg (fieldX w) (fieldY w))
  else if fieldN w = 0x1 then .ok (.orReg (fieldX w) (fieldY w))
  else if fieldN w = 0x2 then .ok (.andReg (fieldX w) (fieldY w))
  else if fieldN w = 0x3 then .ok (.xorReg (fieldX w) (fieldY w))
  else if fieldN w = 0x4 then .ok (.addReg (fieldX w) (fieldY w))
  else if fieldN w = 0x5 then .ok (.sub (fieldX w) (fieldY w))
  else if fieldN w = 0x6 then .ok (.shr (fieldX w) (fieldY w))
  else if fieldN w = 0x7 then .ok (.subn (fieldX w) (fieldY w))
  else if fieldN w = 0xE then .ok (.shl (fieldX w) (fieldY w))
  else .error .family8

/-- Family E: the operation is the low byte (R94). -/
def decodeE (w : Word) : Except Reject Instr :=
  if fieldNN w = 0x9E then .ok (.skp (fieldX w))
  else if fieldNN w = 0xA1 then .ok (.sknp (fieldX w))
  else .error .familyE

/-- Family F: the operation is the low byte (R94). -/
def decodeF (w : Word) : Except Reject Instr :=
  if fieldNN w = 0x07 then .ok (.ldVxDT (fieldX w))
  else if fieldNN w = 0x0A then .ok (.ldVxK (fieldX w))
  else if fieldNN w = 0x15 then .ok (.ldDTVx (fieldX w))
  else if fieldNN w = 0x18 then .ok (.ldSTVx (fieldX w))
  else if fieldNN w = 0x1E then .ok (.addI (fieldX w))
  else if fieldNN w = 0x29 then .ok (.ldF (fieldX w))
  else if fieldNN w = 0x33 then .ok (.ldB (fieldX w))
  else if fieldNN w = 0x55 then .ok (.storeRegs (fieldX w))
  else if fieldNN w = 0x65 then .ok (.loadRegs (fieldX w))
  else .error .familyF

/-- `Decode(w)` of 30_encoding.md R94: total, by the high nibble and then by further nibbles as needed.
The high nibble is below 16, so the last arm is family F alone. -/
def decode (w : Word) : Except Reject Instr :=
  match (fieldOP w).toNat with
  | 0x0 => decode0 w
  | 0x1 => .ok (.jp (fieldNNN w))
  | 0x2 => .ok (.call (fieldNNN w))
  | 0x3 => .ok (.seImm (fieldX w) (fieldNN w))
  | 0x4 => .ok (.sneImm (fieldX w) (fieldNN w))
  | 0x5 => decodeXY0 w .seReg .family5
  | 0x6 => .ok (.ldImm (fieldX w) (fieldNN w))
  | 0x7 => .ok (.addImm (fieldX w) (fieldNN w))
  | 0x8 => decode8 w
  | 0x9 => decodeXY0 w .sneReg .family9
  | 0xA => .ok (.ldI (fieldNNN w))
  | 0xB => .ok (.jpV0 (fieldNNN w))
  | 0xC => .ok (.rnd (fieldX w) (fieldNN w))
  | 0xD => .ok (.drw (fieldX w) (fieldY w) (fieldN w))
  | 0xE => decodeE w
  | _ => decodeF w

/-- Decoding from bytes: the first two, high byte first (20_memory.md R65), and the rest. -/
def decodeBytes : List Byte → Except Reject (Instr × List Byte)
  | hi :: lo :: rest =>
    match decode (Word.ofBytes hi lo) with
    | .ok i => .ok (i, rest)
    | .error r => .error r
  | _ => .error .truncated

/-- A nibble that holds a register index or a row count. -/
def nibble (x : Fin 16) : BitVec 4 := BitVec.ofFin x

/-- Format `NNN` (R92). -/
def wordNNN (op : BitVec 4) (nnn : Addr12) : Word := (op ++ nnn : BitVec (4 + 12))

/-- Formats `XNN` and `X` (R92). -/
def wordXNN (op : BitVec 4) (x : Reg) (nn : Byte) : Word := (op ++ nibble x ++ nn : BitVec (4 + 4 + 8))

/-- Formats `XYN` and `XY` (R92). -/
def wordXYN (op : BitVec 4) (x y n : Fin 16) : Word :=
  (op ++ nibble x ++ nibble y ++ nibble n : BitVec (4 + 4 + 4 + 4))

/-- The word of an instruction (R92, R94). -/
def encode : Instr → Word
  | .cls => 0x00E0
  | .ret => 0x00EE
  | .jp nnn => wordNNN 0x1 nnn
  | .call nnn => wordNNN 0x2 nnn
  | .seImm x nn => wordXNN 0x3 x nn
  | .sneImm x nn => wordXNN 0x4 x nn
  | .seReg x y => wordXYN 0x5 x y 0x0
  | .ldImm x nn => wordXNN 0x6 x nn
  | .addImm x nn => wordXNN 0x7 x nn
  | .ldReg x y => wordXYN 0x8 x y 0x0
  | .orReg x y => wordXYN 0x8 x y 0x1
  | .andReg x y => wordXYN 0x8 x y 0x2
  | .xorReg x y => wordXYN 0x8 x y 0x3
  | .addReg x y => wordXYN 0x8 x y 0x4
  | .sub x y => wordXYN 0x8 x y 0x5
  | .shr x y => wordXYN 0x8 x y 0x6
  | .subn x y => wordXYN 0x8 x y 0x7
  | .shl x y => wordXYN 0x8 x y 0xE
  | .sneReg x y => wordXYN 0x9 x y 0x0
  | .ldI nnn => wordNNN 0xA nnn
  | .jpV0 nnn => wordNNN 0xB nnn
  | .rnd x nn => wordXNN 0xC x nn
  | .drw x y n => wordXYN 0xD x y n
  | .skp x => wordXNN 0xE x 0x9E
  | .sknp x => wordXNN 0xE x 0xA1
  | .ldVxDT x => wordXNN 0xF x 0x07
  | .ldVxK x => wordXNN 0xF x 0x0A
  | .ldDTVx x => wordXNN 0xF x 0x15
  | .ldSTVx x => wordXNN 0xF x 0x18
  | .addI x => wordXNN 0xF x 0x1E
  | .ldF x => wordXNN 0xF x 0x29
  | .ldB x => wordXNN 0xF x 0x33
  | .storeRegs x => wordXNN 0xF x 0x55
  | .loadRegs x => wordXNN 0xF x 0x65

/-- The bytes of an instruction as memory holds them, high byte first (20_memory.md R65). -/
def encodeBytes (i : Instr) : List Byte := [(encode i).hiByte, (encode i).loByte]

/-- The word whose bits are the low `nbits` bits of `w`, every higher bit 0: the numbering of
spec/opcode_table.json, whose rows are one 16-bit word each. -/
def tableWord (nbits w : Nat) : Word := BitVec.ofNat 16 (w % 2 ^ nbits)

/-- What `decodeBytes` reads from an instruction whose bits are `w`, numbered as the opcode table numbers them. -/
def decodeTableWord (nbits w : Nat) : Option Instr :=
  match decodeBytes [(tableWord nbits w).hiByte, (tableWord nbits w).loByte] with
  | .ok (i, _) => some i
  | .error _ => none

end Sys2Proof
end

