-- ==== Sys2Proof/Machine/Font.lean ====
section
/-!
DEFINITION. The default of the parameter FONT (20_memory.md R62).
-/
namespace Sys2Proof.Machine

/-- `FONT[0..79]`: sixteen glyphs of five bytes, the default table of 20_memory.md R62.
PRESUMED (log entry 3), unsafe for a claim about what a glyph looks like: the spec marks the bytes as
general knowledge and makes FONT a parameter. The machine's memory carries its font as data
(`Memory.font`), so only `State.reset` rests on this table. -/
def defaultFont : Vector Byte 80 :=
  #v[0xF0, 0x90, 0x90, 0x90, 0xF0, 0x20, 0x60, 0x20, 0x20, 0x70,
     0xF0, 0x10, 0xF0, 0x80, 0xF0, 0xF0, 0x10, 0xF0, 0x10, 0xF0,
     0x90, 0x90, 0xF0, 0x10, 0x10, 0xF0, 0x80, 0xF0, 0x10, 0xF0,
     0xF0, 0x80, 0xF0, 0x90, 0xF0, 0xF0, 0x10, 0x20, 0x40, 0x40,
     0xF0, 0x90, 0xF0, 0x90, 0xF0, 0xF0, 0x90, 0xF0, 0x10, 0xF0,
     0xF0, 0x90, 0xF0, 0x90, 0x90, 0xE0, 0x90, 0xE0, 0x90, 0xE0,
     0xF0, 0x80, 0x80, 0x80, 0xF0, 0xE0, 0x90, 0x90, 0x90, 0xE0,
     0xF0, 0x80, 0xF0, 0x80, 0xF0, 0xF0, 0x80, 0xF0, 0x80, 0x80]

end Sys2Proof.Machine
end

