-- ==== Sys2Proof/Machine/State.lean ====
section
/-!
DEFINITION. The state of CORE as plain data (10_state.md R20 to R33), the outcomes' reasons, and reset.
-/
namespace Sys2Proof.Machine

/-- A reason to end a step outside the machine's own state. It has NO constructor: every exceptional
condition the spec names is a latched fault, that is a next state (60_exceptions.md R207, R208), so no
step ends this way. -/
inductive Fault where
  deriving DecidableEq, Repr

/-- A refusal to give an instruction a meaning. -/
inductive Refusal where
  /-- Raised by an arm of `exec` whose instruction has no meaning yet: safe (the model stops where the
  hardware goes on). No arm raises it: every instruction has its meaning. -/
  | notModelled (mnemonic : String)
  deriving DecidableEq, Repr

/-- The values of the register `fault` (10_state.md R29; 60_exceptions.md R200). -/
inductive FaultCode where
  /-- Code 0: no fault has occurred. -/
  | none
  /-- Code 1, raised by CALL with sixteen return addresses stacked (R201). -/
  | stackOverflow
  /-- Code 2, raised by RET on the empty stack (R202). -/
  | stackUnderflow
  /-- Code 3, raised by the fetch when pc > 4094 (R203). -/
  | fetchOutOfRange
  /-- Code 4, raised by DRW, LD B, LD [I] and LD Vx,[I] on an address above 4095 (R204). -/
  | dataOutOfRange
  /-- Code 5, raised by SKP and SKNP when V[X] > 15 (R205). -/
  | keyIndexOutOfRange
  deriving DecidableEq, Repr

/-- The 3-bit code the host reads (10_state.md R29): 6 and 7 are never produced. -/
def FaultCode.code : FaultCode → BitVec 3
  | .none => 0
  | .stackOverflow => 1
  | .stackUnderflow => 2
  | .fetchOutOfRange => 3
  | .dataOutOfRange => 4
  | .keyIndexOutOfRange => 5

/-- The memory image (10_state.md R31; 20_memory.md R60): the cells that differ from their reset
contents, addresses strictly rising, and the parameter FONT those reset contents are taken from. -/
structure Memory where
  /-- `FONT[0..79]` (20_memory.md R62): a parameter of the machine that no step and no host operation writes. -/
  font : Vector Byte 80
  /-- The listed cells; an unlisted address reads as `Memory.unlisted` says. -/
  cells : List Host.Cell
  deriving DecidableEq, Repr

/-- The framebuffer, 32 rows of 64 cells, `true` = lit (10_state.md R27): `fb[y][x]`. -/
abbrev Framebuffer := Vector (Vector Bool 64) 32

/-- What the host presents to the next step (10_state.md R32), and the model's own two fields about the
host. None of it is state of CORE. -/
structure HostSide where
  /-- The key vector of the next step; bit `i` = 1 when key `i` is pressed (R32). -/
  keys : BitVec 16
  /-- The random byte of the next step (R32). -/
  rand : Byte
  /-- The model's own: the index of the next free input (log entry 1). -/
  draws : Nat
  /-- The model's own: `load_rom` is still allowed (70_reset_and_hazards.md R232, log entry 2). -/
  loadOpen : Bool
  deriving DecidableEq, Repr

/-- The whole state (10_state.md section 1), the outputs of the last step (R33) and the host's side. -/
structure State where
  /-- `V[0..15]`; `V[15]` doubles as the flag register (R20, R21). -/
  V : Vector Byte 16
  /-- The address register (R22). -/
  I : Word
  /-- The program counter: the address of the next instruction (R23). -/
  pc : Word
  /-- The last word fetched (R24). -/
  opcode : Word
  /-- The sixteen slots of the call stack (R25). -/
  stack : Vector Word 16
  /-- The number of return addresses on the stack, 0 to 16 (R25; 90_conflicts.md C1). -/
  sp : Fin 17
  /-- The delay timer (R26). -/
  dt : Byte
  /-- The sound timer (R26). -/
  st : Byte
  /-- The framebuffer (R27). -/
  fb : Framebuffer
  /-- The dirty flag (R28). -/
  dirty : Bool
  /-- The fault register (R29). -/
  fault : FaultCode
  /-- What was recorded with the fault (R29). -/
  faultInfo : BitVec 17
  /-- The number of completed steps (R30). -/
  cycles : Nat
  /-- Memory (R31). -/
  mem : Memory
  /-- Output of the last step: its tick took `st` from 1 to 0 (R33; 60_exceptions.md R213). -/
  beep : Bool
  /-- Output of the last step: it ended in `hold` (R33; 45_timer_key.md R183). -/
  keyWait : Bool
  /-- Output of the last step: it executed UNKNOWN (R33; 30_encoding.md R95). -/
  warn : Bool
  /-- The host's side: the inputs of the next step (R32). -/
  host : HostSide
  deriving DecidableEq, Repr

/-- The state after reset for a given FONT (10_state.md R38). The host's inputs have no reset value
(92_eei_decisions.md D2): 0 is the model's DESIGN CHOICE (log entry 1), unsafe for a claim that leans on
the inputs of the very first step. -/
def State.resetWith (font : Vector Byte 80) : State where
  V := Vector.replicate 16 0
  I := 0
  pc := 512
  opcode := 0
  stack := Vector.replicate 16 0
  sp := 0
  dt := 0
  st := 0
  fb := Vector.replicate 32 (Vector.replicate 64 false)
  dirty := false
  fault := .none
  faultInfo := 0
  cycles := 0
  mem := { font := font, cells := [] }
  beep := false
  keyWait := false
  warn := false
  host := { keys := 0, rand := 0, draws := 0, loadOpen := true }

/-- The machine right after reset (10_state.md R38; 70_reset_and_hazards.md R230), with the default FONT. -/
def State.reset : State := State.resetWith defaultFont

end Sys2Proof.Machine
end

