-- ==== Sys2Proof/Machine/Ops.lean ====
section
/-!
DEFINITION. The named operations over memory, registers, the stack, the framebuffer, faults and outputs.
-/
namespace Sys2Proof.Machine

/-- The outcome of a step or a meaning. -/
abbrev Result := Host.Outcome State Fault Refusal

/-! ### Memory (20_memory.md) -/

/-- What an address that no cell lists reads as: its reset contents, FONT at 0 to 79 and 0 elsewhere
(20_memory.md R61, R62; 10_state.md R38). -/
def Memory.unlisted (m : Memory) (a : Nat) : Byte :=
  if h : a < 80 then m.font[a] else 0

/-- The listed byte at an address. -/
def lookupCell : List Host.Cell → Nat → Option Byte
  | [], _ => none
  | (k, b) :: cs, a => if k = a then some b else lookupCell cs a

/-- `mem[a]`, for an address that exists (20_memory.md R63). Every access of the machine is checked
against 4095 before it (`State.dataFault`, `State.fetchWord`). -/
def Memory.byteAt (m : Memory) (a : Nat) : Byte := (lookupCell m.cells a).getD (m.unlisted a)

/-- Put the byte `b` at `a` in a canonical list of cells; `skip` says that `b` is what an unlisted `a`
reads as, and then the address stays unlisted. -/
def putCell (skip : Bool) (a : Nat) (b : Byte) : List Host.Cell → List Host.Cell
  | [] => if skip then [] else [(a, b)]
  | (k, c) :: cs =>
    if a < k then (if skip then (k, c) :: cs else (a, b) :: (k, c) :: cs)
    else if a = k then (if skip then cs else (a, b) :: cs)
    else (k, c) :: putCell skip a b cs

/-- `mem[a] <- b` (20_memory.md R63), keeping the canonical form. -/
def Memory.write (m : Memory) (a : Nat) (b : Byte) : Memory :=
  { m with cells := putCell (b == m.unlisted a) a b m.cells }

/-- Bytes at consecutive addresses, the first at `a` (20_memory.md R65, R67). -/
def Memory.writeBytes (m : Memory) (a : Nat) : List Byte → Memory
  | [] => m
  | b :: bs => (m.write a b).writeBytes (a + 1) bs

/-- `n` bytes at consecutive addresses, the first at `a` (20_memory.md R67). -/
def Memory.readBytes (m : Memory) (a : Nat) : Nat → List Byte
  | 0 => []
  | n + 1 => m.byteAt a :: m.readBytes (a + 1) n

/-- The canonical form of the listed cells: addresses strictly rising, all of them below 4096, and no
cell equal to what its address reads as unlisted. -/
def cellsWf (m : Memory) : List Host.Cell → Bool
  | [] => true
  | (k, b) :: cs => decide (k < 4096) && b != m.unlisted k && cs.all (fun c => decide (k < c.1)) && cellsWf m cs

/-- The memory is in its canonical form. -/
def Memory.wf (m : Memory) : Bool := cellsWf m m.cells

/-! ### Registers (10_state.md R20 to R23) -/

/-- `V[x]` (00_scope.md R9). -/
def State.getV (s : State) (x : Reg) : Byte := s.V[x.val]

/-- `V[x] <- b` (00_scope.md R9). No register is hardwired (10_state.md R20). -/
def State.setV (s : State) (x : Reg) (b : Byte) : State := { s with V := s.V.set x.val b }

/-- `I <- w` (10_state.md R22). -/
def State.setI (s : State) (w : Word) : State := { s with I := w }

/-- `dt <- b` (45_timer_key.md R181). -/
def State.setDt (s : State) (b : Byte) : State := { s with dt := b }

/-- `st <- b` (45_timer_key.md R182). -/
def State.setSt (s : State) (b : Byte) : State := { s with st := b }

/-- The step ends with `pc` at `target`: `npc <- target` (00_scope.md R9; 10_state.md R35 part 4). -/
def State.jump (s : State) (target : Word) : State := { s with pc := target }

/-- The default next pc, `(pc + 2) mod 65536` (10_state.md R35 part 2). -/
def State.advance (s : State) : State := s.jump (s.pc + 2)

/-- `skip` when the condition holds (41_skip.md R130), the default next pc when not. -/
def State.skipIf (s : State) (c : Bool) : State := if c then s.jump (s.pc + 4) else s.advance

/-! ### The call stack (10_state.md R25) -/

/-- Push: needs `sp <= 15`, writes `stack[sp]`, then increments `sp`. -/
def State.push (s : State) (ret : Word) : Option State :=
  if h : s.sp.val < 16 then
    some { s with stack := s.stack.set s.sp.val ret, sp := ⟨s.sp.val + 1, by omega⟩ }
  else none

/-- Pop: needs `sp >= 1`, decrements `sp`, then reads `stack[sp]`; the slot keeps its value. -/
def State.pop (s : State) : Option (Word × State) :=
  if h : 0 < s.sp.val then
    some (s.stack[s.sp.val - 1], { s with sp := ⟨s.sp.val - 1, by omega⟩ })
  else none

/-! ### Faults (60_exceptions.md R200, R207, R208) -/

/-- Taking a fault, the one operation for all five (60_exceptions.md R207): `fault` and `fault_info` are
latched and nothing else changes. `pc` keeps the address of the faulting instruction; there is no
handler, no vector, no saved state and no change of mode. The step around it leaves `cycles` and the
timers alone and its outputs 0 (`State.finish`). There is no return from a fault (R208): only reset
clears it, so the machine has no operation that undoes this one. -/
def State.raise (s : State) (f : FaultCode) (info : BitVec 17) : State :=
  { s with fault := f, faultInfo := info }

/-- A fault whose information is the address of the instruction (R200). -/
def State.raiseAtPc (s : State) (f : FaultCode) : State := s.raise f (s.pc.setWidth 17)

/-- The lowest address above 4095 among the `n` addresses from `I`, if there is one
(43_index_memory.md R164): natural numbers, no wrap; none when `n` is 0. -/
def State.dataFault (s : State) (n : Nat) : Option Nat :=
  if n ≠ 0 ∧ s.I.toNat + (n - 1) > 4095 then some (max s.I.toNat 4096) else none

/-- An access to the `n` bytes from `I`: checked whole before anything is done
(20_memory.md R63; 43_index_memory.md R164). Out of range it latches DataOutOfRange and does none of
its writes (60_exceptions.md R204); in range the result is `t`. -/
def State.accessBlock (s : State) (n : Nat) (t : State) : Result :=
  match s.dataFault n with
  | some a => .next (s.raise .dataOutOfRange (BitVec.ofNat 17 a))
  | none => .next t

/-! ### The framebuffer (10_state.md R27; 44_display.md R173) -/

/-- `fb[y mod 32][x mod 64]` (44_display.md R171: both axes wrap for every pixel). -/
def fbCell (fb : Framebuffer) (y x : Nat) : Bool :=
  (fb[y % 32]'(Nat.mod_lt _ (by decide)))[x % 64]'(Nat.mod_lt _ (by decide))

/-- Toggle one cell: `fb[y][x] <- fb[y][x] ^ 1` (R173), coordinates wrapped as in `fbCell`. -/
def fbToggle (fb : Framebuffer) (y x : Nat) : Framebuffer :=
  fb.set (y % 32)
    ((fb[y % 32]'(Nat.mod_lt _ (by decide))).set (x % 64) (!fbCell fb y x) (Nat.mod_lt _ (by decide)))
    (Nat.mod_lt _ (by decide))

/-- Clear-all (R170, R173). -/
def fbClear : Framebuffer := Vector.replicate 32 (Vector.replicate 64 false)

/-! ### Outputs and the ends of a step (10_state.md R33, R35) -/

/-- `beep <- 0; key_wait <- 0; warn <- 0`, the start of every step (R35). -/
def State.clearOutputs (s : State) : State := { s with beep := false, keyWait := false, warn := false }

/-- `hold` (00_scope.md R9; 45_timer_key.md R183): nothing is committed, `key_wait` is 1. -/
def State.hold (s : State) : State := { s with keyWait := true }

/-- A timer's decrement: a timer at 0 stays at 0 (60_exceptions.md R212). -/
def tickDown (b : Byte) : Byte := if b = 0 then 0 else b - 1

/-- `TimerTick` (60_exceptions.md R212, R213): both timers go down once, and `beep` is set when `st` goes
from 1 to 0. -/
def State.timerTick (s : State) : State :=
  { s with
    st := tickDown s.st
    dt := tickDown s.dt
    beep := if s.st ≠ 0 ∧ tickDown s.st = 0 then true else s.beep }

/-- `cycles <- cycles + 1` (10_state.md R30, R35 part 4). -/
def State.countCycle (s : State) : State := { s with cycles := s.cycles + 1 }

/-- What follows the instruction in a step (10_state.md R35): a step that faulted or holds ends at once;
any other is completed, counts a cycle and ticks the timers. -/
def State.finish (s : State) : State :=
  if s.fault = .none ∧ s.keyWait = false then s.countCycle.timerTick else s

/-- `opcode <- w` (10_state.md R24, R35 part 1). -/
def State.loadOpcode (s : State) (w : Word) : State := { s with opcode := w }

/-- `FetchWord(pc)` (20_memory.md R64): the big-endian word at `pc` and `pc + 1`, nothing when `pc > 4094`. -/
def State.fetchWord (s : State) : Option Word :=
  if s.pc.toNat > 4094 then none
  else some (Word.ofBytes (s.mem.byteAt s.pc.toNat) (s.mem.byteAt (s.pc.toNat + 1)))

/-- The key vector of the next step: the one of the host's call of `set_keys`, and the same vector again where
it makes no call (70_reset_and_hazards.md R233, R235). -/
def nextKeys (call : Option (BitVec 16)) (keys : BitVec 16) : BitVec 16 := call.getD keys

/-- The host presents the next step's inputs (10_state.md R32; log entry 1): the key vector, which stays unless
the host sets it, whether and to what it does being a free value; and a free random byte. A step has been
requested, so `load_rom` is no longer allowed (70_reset_and_hazards.md R232; log entry 2). -/
def State.nextInputs (s : State) : State :=
  { s with host :=
      { keys := nextKeys (Config.hostSetKeys s.host.draws) s.host.keys
        rand := Config.hostRand s.host.draws
        draws := s.host.draws + 1
        loadOpen := false } }

end Sys2Proof.Machine
end

