-- ==== Sys2Proof/Machine/Operands.lean ====
section
/-!
DEFINITION. The operand forms: immediates, key indices, decimal digits, the block at `I`, sprite bytes.

Register operands are `State.getV`; the 8-bit immediate `NN` is used as it is (30_encoding.md R93).
-/
namespace Sys2Proof.Machine

/-- `zext_16(NNN)` (30_encoding.md R93). -/
def addrWord (nnn : Addr12) : Word := nnn.setWidth 16

/-- `keys[k]` of this step (10_state.md R32). -/
def State.keyDown (s : State) (k : Nat) : Bool := s.host.keys.getLsbD k

/-- The least pressed key, none when `keys = 0` (45_timer_key.md R183). -/
def lowestKey (keys : BitVec 16) : Option Nat := (List.range 16).find? fun k => keys.getLsbD k

/-- The hundreds, tens and ones of a byte, in the order they are stored (43_index_memory.md R163). -/
def decimalDigits (v : Byte) : List Byte :=
  [BitVec.ofNat 8 (v.toNat / 100), BitVec.ofNat 8 (v.toNat / 10 % 10), BitVec.ofNat 8 (v.toNat % 10)]

/-- The base address of a glyph, `5 * zext_16(V[X])` (43_index_memory.md R162). -/
def glyphAddr (v : Byte) : Word := 5 * v.toWord

/-- Store bytes at `I`, `I + 1`, … (20_memory.md R67). -/
def State.storeAtI (s : State) (bs : List Byte) : State :=
  { s with mem := s.mem.writeBytes s.I.toNat bs }

/-- All sixteen registers, lowest first (43_index_memory.md R165). -/
def State.allV (s : State) : List Byte := s.V.toList

/-- `mem[I + k]`. -/
def State.atI (s : State) (k : Nat) : Byte := s.mem.byteAt (s.I.toNat + k)

/-- `V[k] <- mem[I + k]` for all sixteen `k` (43_index_memory.md R166). -/
def State.loadAllV (s : State) : State :=
  { s with V := #v[s.atI 0, s.atI 1, s.atI 2, s.atI 3, s.atI 4, s.atI 5, s.atI 6, s.atI 7,
                   s.atI 8, s.atI 9, s.atI 10, s.atI 11, s.atI 12, s.atI 13, s.atI 14, s.atI 15] }

/-- The `n` sprite bytes from `I` (44_display.md R171). -/
def State.spriteBytes (s : State) (n : Nat) : List Byte := s.mem.readBytes s.I.toNat n

end Sys2Proof.Machine
end

