-- ==== Sys2Proof/Machine/Flags.lean ====
section
/-!
DEFINITION. Every flag computation (10_state.md R21): carry, not-borrow, shifted-out bits, collision.
-/
namespace Sys2Proof.Machine

/-- Carry of an 8-bit sum: the 9-bit sum exceeds 255 (42_load_alu.md R147). -/
def carry (a b : Byte) : Bool := decide (a.toNat + b.toNat > 255)

/-- Not-borrow of `a - b`: the minuend is at least the subtrahend (42_load_alu.md R148, R150). -/
def notBorrow (a b : Byte) : Bool := decide (a.toNat ≥ b.toNat)

/-- The bit a right shift drops: bit 0 of the old value (42_load_alu.md R149). -/
def shrOut (a : Byte) : Bool := a.getLsbD 0

/-- The bit a left shift drops: bit 7 of the old value (42_load_alu.md R151). -/
def shlOut (a : Byte) : Bool := a.getLsbD 7

/-- A flag as the byte 0 or 1 (10_state.md R21). -/
def flagByte (c : Bool) : Byte := if c then 1 else 0

/-- `V[15] <- flag`, the last write of an instruction (00_scope.md R10). -/
def State.setFlag (s : State) (c : Bool) : State := s.setV 15 (flagByte c)

/-- One pixel of a draw (44_display.md R171, R172): for a set sprite bit the cell is toggled, and the
collision bit is set when the cell was lit. `p` is the framebuffer and the collision bit so far. -/
def drawPixel (x0 y : Nat) (b : Byte) (p : Framebuffer × Bool) (j : Nat) : Framebuffer × Bool :=
  if b.getLsbD (7 - j) then (fbToggle p.1 y (x0 + j), p.2 || fbCell p.1 y (x0 + j)) else p

/-- One row of a draw: `j = 0` is the leftmost pixel, the most significant bit (R171). -/
def drawRow (x0 y : Nat) (b : Byte) (p : Framebuffer × Bool) : Framebuffer × Bool :=
  (List.range 8).foldl (drawPixel x0 y b) p

/-- The rows of a draw from row `y` on (R171): no row, nothing drawn and no collision. -/
def drawRows (x0 y : Nat) : List Byte → Framebuffer × Bool → Framebuffer × Bool
  | [], p => p
  | b :: bs, p => drawRows x0 (y + 1) bs (drawRow x0 y b p)

end Sys2Proof.Machine
end

