-- ==== Sys2Proof/Machine/Cycle.lean ====
section
/-!
DEFINITION. One step around the execution of an instruction (10_state.md R35), UNKNOWN words, and the
placing of an instruction where the next step fetches it.
-/
namespace Sys2Proof.Machine

/-- UNKNOWN (30_encoding.md R95): `warn`, and the default next pc. The step completes. -/
def State.execUnknown (s : State) : State := { s with warn := true }.advance

/-- Decode the fetched word and run its rule (10_state.md R35 part 3). `execute` is `exec`. -/
def State.execWord (execute : Instr → State → Result) (w : Word) (s : State) : Result :=
  match decode w with
  | .ok i => execute i s
  | .error _ => .next s.execUnknown

/-- The end of a step, after the instruction (10_state.md R35 parts 4 and 5), and the next inputs. -/
def finishStep : Result → Result
  | .next t => .next t.finish.nextInputs
  | .fault f => .fault f
  | .refused r => .refused r

/-- The step of an unhalted machine whose outputs are 0: fetch, or latch FetchOutOfRange with the opcode
register unchanged (20_memory.md R64; 60_exceptions.md R203); load `opcode`; execute; finish. -/
def State.runCycle (execute : Instr → State → Result) (s : State) : Result :=
  match s.fetchWord with
  | none => finishStep (.next (s.raiseAtPc .fetchOutOfRange))
  | some w => finishStep ((s.loadOpcode w).execWord execute w)

/-- The master rule of one step (10_state.md R35). A latched fault stops everything: the step changes no
state of CORE and its outputs are 0 (60_exceptions.md R208). -/
def State.stepWith (execute : Instr → State → Result) (s : State) : Result :=
  if s.fault = .none then s.clearOutputs.runCycle execute else .next s.clearOutputs.nextInputs

/-- Store an instruction's two bytes where the next step fetches them, high byte first (20_memory.md R64).
Nothing is stored when `pc` is beyond the last fetchable address: no such bytes exist (log entry 4). -/
def State.placeWord (s : State) (w : Word) : State :=
  if s.pc.toNat > 4094 then s
  else { s with mem := s.mem.writeBytes s.pc.toNat [w.hiByte, w.loByte] }

end Sys2Proof.Machine
end

