-- ==== Sys2Proof/Machine/Display.lean ====
section
/-!
DEFINITION. Display (44_display.md): CLS, DRW.
-/
namespace Sys2Proof.Machine

/-- The framebuffer is replaced and marked dirty, whether or not a cell changed
(44_display.md R173; 90_conflicts.md C2). -/
def State.setFb (s : State) (fb : Framebuffer) : State := { s with fb := fb, dirty := true }

/-- A draw at the origin (x0, y0) (44_display.md R171): the rows are drawn, `dirty` is set, and the
collision bit goes to V[15] last. -/
def State.draw (s : State) (x0 y0 : Nat) (rows : List Byte) : State :=
  (s.setFb (drawRows x0 y0 rows (s.fb, false)).1).setFlag (drawRows x0 y0 rows (s.fb, false)).2

/-- 00E0 (44_display.md R170). -/
def execCls (s : State) : Result := .next (s.setFb fbClear).advance

/-- DXYN (44_display.md R171): `n` rows from `I`; `n = 0` reads nothing and cannot fault. -/
def execDrw (x y : Reg) (n : Fin 16) (s : State) : Result :=
  s.accessBlock n.val
    (s.draw (s.getV x).toNat (s.getV y).toNat (s.spriteBytes n.val)).advance

end Sys2Proof.Machine
end

