-- ==== Sys2Proof/Machine/Flow.lean ====
section
/-!
DEFINITION. Control transfer (40_flow.md): RET, JP, CALL, JP V0.
-/
namespace Sys2Proof.Machine

/-- 00EE (40_flow.md R120): StackUnderflow on the empty stack, else `pc` is the popped value as it is. -/
def execRet (s : State) : Result :=
  match s.pop with
  | some (target, t) => .next (t.jump target)
  | none => .next (s.raiseAtPc .stackUnderflow)

/-- 1NNN (40_flow.md R121). -/
def execJp (nnn : Addr12) (s : State) : Result := .next (s.jump (addrWord nnn))

/-- 2NNN (40_flow.md R122): StackOverflow with sixteen addresses stacked, else push `pc + 2` and jump. -/
def execCall (nnn : Addr12) (s : State) : Result :=
  match s.push (s.pc + 2) with
  | some t => .next (t.jump (addrWord nnn))
  | none => .next (s.raiseAtPc .stackOverflow)

/-- BNNN (40_flow.md R123): always V[0], the sum modulo 65536. -/
def execJpV0 (nnn : Addr12) (s : State) : Result := .next (s.jump ((s.getV 0).toWord + addrWord nnn))

end Sys2Proof.Machine
end

