-- ==== Sys2Proof/Machine/IndexMemory.lean ====
section
/-!
DEFINITION. The address register and memory transfers (43_index_memory.md).
-/
namespace Sys2Proof.Machine

/-- ANNN (43_index_memory.md R160). -/
def execLdI (nnn : Addr12) (s : State) : Result := .next (s.setI (addrWord nnn)).advance

/-- FX1E (43_index_memory.md R161): modulo 65536, V[15] is not written. -/
def execAddI (x : Reg) (s : State) : Result := .next (s.setI (s.I + (s.getV x).toWord)).advance

/-- FX29 (43_index_memory.md R162): the whole byte is multiplied. -/
def execLdF (x : Reg) (s : State) : Result := .next (s.setI (glyphAddr (s.getV x))).advance

/-- FX33 (43_index_memory.md R163): three digit bytes from `I` on; `I` and V[x] are unchanged. -/
def execLdB (x : Reg) (s : State) : Result :=
  s.accessBlock 3 (s.storeAtI (decimalDigits (s.getV x))).advance

/-- FX55 (43_index_memory.md R165): all sixteen registers, whatever `X` is; `I` advances by 16. -/
def execStoreRegs (_x : Reg) (s : State) : Result :=
  s.accessBlock 16 ((s.storeAtI s.allV).setI (s.I + 16)).advance

/-- FX65 (43_index_memory.md R166): all sixteen registers, whatever `X` is; `I` advances by 16. -/
def execLoadRegs (_x : Reg) (s : State) : Result :=
  s.accessBlock 16 (s.loadAllV.setI (s.I + 16)).advance

end Sys2Proof.Machine
end

