-- ==== Sys2Proof/Machine/LoadAlu.lean ====
section
/-!
DEFINITION. Register loads and the ALU (42_load_alu.md): LD, ADD, OR, AND, XOR, SUB, SHR, SUBN, SHL, RND.

Every operand is read from the state before the instruction, and a flag is the last write
(00_scope.md R10; 42_load_alu.md R153).
-/
namespace Sys2Proof.Machine

/-- 6XNN (42_load_alu.md R141). -/
def execLdImm (x : Reg) (nn : Byte) (s : State) : Result := .next (s.setV x nn).advance

/-- 7XNN (42_load_alu.md R142): modulo 256, no flag. -/
def execAddImm (x : Reg) (nn : Byte) (s : State) : Result := .next (s.setV x (s.getV x + nn)).advance

/-- 8XY0 (42_load_alu.md R143). -/
def execLdReg (x y : Reg) (s : State) : Result := .next (s.setV x (s.getV y)).advance

/-- 8XY1 (42_load_alu.md R144): V[15] is not written as a flag. -/
def execOrReg (x y : Reg) (s : State) : Result := .next (s.setV x (s.getV x ||| s.getV y)).advance

/-- 8XY2 (42_load_alu.md R145): V[15] is not written as a flag. -/
def execAndReg (x y : Reg) (s : State) : Result := .next (s.setV x (s.getV x &&& s.getV y)).advance

/-- 8XY3 (42_load_alu.md R146): V[15] is not written as a flag. -/
def execXorReg (x y : Reg) (s : State) : Result := .next (s.setV x (s.getV x ^^^ s.getV y)).advance

/-- 8XY4 (42_load_alu.md R147). -/
def execAddReg (x y : Reg) (s : State) : Result :=
  .next ((s.setV x (s.getV x + s.getV y)).setFlag (carry (s.getV x) (s.getV y))).advance

/-- 8XY5 (42_load_alu.md R148). -/
def execSub (x y : Reg) (s : State) : Result :=
  .next ((s.setV x (s.getV x - s.getV y)).setFlag (notBorrow (s.getV x) (s.getV y))).advance

/-- 8XY6 (42_load_alu.md R149): the old V[x] is not read; V[y] and V[x] both become `V[y] >> 1`. -/
def execShr (x y : Reg) (s : State) : Result :=
  .next (((s.setV y (s.getV y >>> 1)).setV x (s.getV y >>> 1)).setFlag (shrOut (s.getV y))).advance

/-- 8XY7 (42_load_alu.md R150). -/
def execSubn (x y : Reg) (s : State) : Result :=
  .next ((s.setV x (s.getV y - s.getV x)).setFlag (notBorrow (s.getV y) (s.getV x))).advance

/-- 8XYE (42_load_alu.md R151): the old V[x] is not read; V[y] and V[x] both become `V[y] << 1`. -/
def execShl (x y : Reg) (s : State) : Result :=
  .next (((s.setV y (s.getV y <<< 1)).setV x (s.getV y <<< 1)).setFlag (shlOut (s.getV y))).advance

/-- CXNN (42_load_alu.md R152): `rand` is this step's free input (10_state.md R32; log entry 1). -/
def execRnd (x : Reg) (nn : Byte) (s : State) : Result := .next (s.setV x (s.host.rand &&& nn)).advance

end Sys2Proof.Machine
end

