-- ==== Sys2Proof/Machine/Skip.lean ====
section
/-!
DEFINITION. Conditional skips (41_skip.md): SE, SNE, SKP, SKNP.
-/
namespace Sys2Proof.Machine

/-- 3XNN (41_skip.md R131). -/
def execSeImm (x : Reg) (nn : Byte) (s : State) : Result := .next (s.skipIf (s.getV x == nn))

/-- 4XNN (41_skip.md R132). -/
def execSneImm (x : Reg) (nn : Byte) (s : State) : Result := .next (s.skipIf (s.getV x != nn))

/-- 5XY0 (41_skip.md R133). -/
def execSeReg (x y : Reg) (s : State) : Result := .next (s.skipIf (s.getV x == s.getV y))

/-- 9XY0 (41_skip.md R134). -/
def execSneReg (x y : Reg) (s : State) : Result := .next (s.skipIf (s.getV x != s.getV y))

/-- A skip on a key, `V[x]` its index (41_skip.md R135, R136): KeyIndexOutOfRange with `V[x]` recorded
when the index is above 15, else `onKey` says from the key's state whether to skip. -/
def State.skipOnKey (s : State) (x : Reg) (onKey : Bool → Bool) : Result :=
  if (s.getV x).toNat > 15 then .next (s.raise .keyIndexOutOfRange ((s.getV x).setWidth 17))
  else .next (s.skipIf (onKey (s.keyDown (s.getV x).toNat)))

/-- EX9E (41_skip.md R135): skip when the key is pressed. -/
def execSkp (x : Reg) (s : State) : Result := s.skipOnKey x fun down => down

/-- EXA1 (41_skip.md R136): skip when the key is not pressed. -/
def execSknp (x : Reg) (s : State) : Result := s.skipOnKey x fun down => !down

end Sys2Proof.Machine
end

