-- ==== Sys2Proof/Machine/TimerKey.lean ====
section
/-!
DEFINITION. Timer access and the key wait (45_timer_key.md). The tick of the same step follows the
instruction and is `State.timerTick`.
-/
namespace Sys2Proof.Machine

/-- FX07 (45_timer_key.md R180): `dt` as it stood when the step began. -/
def execLdVxDT (x : Reg) (s : State) : Result := .next (s.setV x s.dt).advance

/-- FX0A (45_timer_key.md R183): the lowest pressed key, or `hold` while no key is pressed. -/
def execLdVxK (x : Reg) (s : State) : Result :=
  match lowestKey s.host.keys with
  | some k => .next (s.setV x (BitVec.ofNat 8 k)).advance
  | none => .next s.hold

/-- FX15 (45_timer_key.md R181). -/
def execLdDTVx (x : Reg) (s : State) : Result := .next (s.setDt (s.getV x)).advance

/-- FX18 (45_timer_key.md R182). -/
def execLdSTVx (x : Reg) (s : State) : Result := .next (s.setSt (s.getV x)).advance

end Sys2Proof.Machine
end

