-- ==== Sys2Proof/Machine/HostOps.lean ====
section
/-!
DEFINITION. What the host may do between steps (70_reset_and_hazards.md R230 to R235, R240).
-/
namespace Sys2Proof.Machine

/-- Why `load_rom` loads nothing. Neither is a fault of a step, and neither changes the machine. -/
inductive LoadError where
  /-- The ROM is longer than 3584 bytes (60_exceptions.md R218). -/
  | romTooLarge
  /-- The load comes after the first step or after a load that succeeded: the spec gives the host no
  such move (70_reset_and_hazards.md R232, R240; log entry 2). -/
  | notAtLaunch
  deriving DecidableEq, Repr

/-- Reset at any time (70_reset_and_hazards.md R230): every element of CORE at its reset value, `load_rom`
allowed again. FONT is a parameter and the host's inputs are not CORE's, so both stay. -/
def State.hostReset (s : State) : State :=
  { State.resetWith s.mem.font with host := { s.host with loadOpen := true } }

/-- `load_rom(bytes)` (70_reset_and_hazards.md R232; 60_exceptions.md R218): the bytes verbatim from
address 512 on, and nothing else changes; a ROM that is too large changes nothing and may be retried. -/
def State.loadRom (s : State) (rom : List Byte) : Except LoadError State :=
  if s.host.loadOpen = false then .error .notAtLaunch
  else if rom.length > Config.romMax then .error .romTooLarge
  else .ok { s with mem := s.mem.writeBytes Config.progBase rom, host := { s.host with loadOpen := false } }

/-- `set_keys` (70_reset_and_hazards.md R233): the whole vector of the next step. -/
def State.setKeys (s : State) (keys : BitVec 16) : State := { s with host := { s.host with keys := keys } }

/-- The random byte of the next step (70_reset_and_hazards.md R235). -/
def State.supplyRand (s : State) (b : Byte) : State := { s with host := { s.host with rand := b } }

/-- `clear_draw` (70_reset_and_hazards.md R234). -/
def State.clearDraw (s : State) : State := { s with dirty := false }

/-- The framebuffer accessor's linear view, `fbbit[64 * y + x] = fb[y][x]` (10_state.md R27), for an
index below 2048. -/
def State.fbBit (s : State) (n : Fin 2048) : Bool := fbCell s.fb (n.val / 64) (n.val % 64)

/-- `should_draw()` (10_state.md R28). -/
def State.shouldDraw (s : State) : Bool := s.dirty

/-- What the host reads of the fault register: its 3-bit code and `fault_info` (10_state.md R29, R33). -/
def State.readFault (s : State) : BitVec 3 × BitVec 17 := (s.fault.code, s.faultInfo)

end Sys2Proof.Machine
end

