-- ==== Sys2Proof/Machine/System.lean ====
section
/-!
DEFINITION. CORE and the host together: the host acts between steps (00_scope.md R5; 70_reset_and_hazards.md R240).
-/
namespace Sys2Proof.Machine

/-- One move of the host (70_reset_and_hazards.md R240). Reading `fb`, `dirty` and the fault register
changes nothing and is no move. -/
inductive HostMove where
  /-- Reset, at any time (R230). -/
  | reset
  /-- `load_rom` (R232). -/
  | loadRom (rom : List Byte)
  /-- `set_keys` (R233): the vector stays for every later step until the next such move. -/
  | setKeys (keys : BitVec 16)
  /-- The random byte of the next step (R235). -/
  | supplyRand (b : Byte)
  /-- `clear_draw` (R234). -/
  | clearDraw
  /-- A step is requested (R240). -/
  | step
  deriving DecidableEq, Repr

/-- A step requested by a host whose calls are the moves (R240): no call of `set_keys` comes with it, so the next
step is presented the vector of this one, until a move `setKeys` replaces it (R233, R235). The random byte of the
next step is again a free value unless a move supplies it. -/
def State.requestStep (s : State) : Result :=
  match Sys2Proof.Machine.step s with
  | .next t => .next (t.setKeys s.host.keys)
  | .fault f => .fault f
  | .refused r => .refused r

/-- The state after one move of the host. A load that fails leaves the machine as it was (60_exceptions.md R218). -/
def State.move (s : State) : HostMove → Result
  | .reset => .next s.hostReset
  | .loadRom rom =>
    match s.loadRom rom with
    | .ok t => .next t
    | .error _ => .next s
  | .setKeys keys => .next (s.setKeys keys)
  | .supplyRand b => .next (s.supplyRand b)
  | .clearDraw => .next s.clearDraw
  | .step => s.requestStep

/-- A sequence of moves, the first of the list first. -/
def State.moves (s : State) : List HostMove → Result
  | [] => .next s
  | m :: ms =>
    match s.move m with
    | .next t => t.moves ms
    | .fault f => .fault f
    | .refused r => .refused r

end Sys2Proof.Machine
end

