-- ==== Sys2Proof/Safety.lean ====
section
/-!
DEFINITION. The terms claims are stated in: faulted and at rest, the launch state, what an instruction
leaves unchanged, and the machine's invariant.
-/
namespace Sys2Proof.Machine

/-- The state is faulted: CORE is halted until reset (60_exceptions.md R208; 70_reset_and_hazards.md R239). -/
def State.Faulted (s : State) : Prop := s.fault ≠ .none

/-- A safe run, of any length: every step up to the `n`-th answers a state that is not faulted. -/
def SafeRun (s : State) (n : Nat) : Prop :=
  ∀ k, k ≤ n → ∃ t, Host.Core.run Sys2Proof.core k s = .next t ∧ ¬ State.Faulted t

/-- At rest at address `a`: not faulted, and the instruction at `pc = a` is a jump to itself
(70_reset_and_hazards.md R239). For claims only: CORE does not stop there. -/
def State.AtRest (s : State) (a : Word) : Prop :=
  s.fault = .none ∧ s.pc = a ∧ a.toNat ≤ 4094 ∧
    Word.ofBytes (s.mem.byteAt a.toNat) (s.mem.byteAt (a.toNat + 1)) = 0x1000 ||| a

/-- `Launch(rom)` for a given FONT (70_reset_and_hazards.md R241): the state after reset and a successful load. -/
def Launch (font : Vector Byte 80) (rom : List Byte) : Except LoadError State :=
  (State.resetWith font).loadRom rom

/-- The parts of the state, for frames. -/
inductive Part where
  | V | I | pc | opcode | stack | sp | dt | st | fb | dirty
  | fault | faultInfo | cycles | mem | font | beep | keyWait | warn | host
  deriving DecidableEq, Repr

/-- A part holds the same in both states; memory byte by byte, at every address. -/
def Part.Same (s t : State) : Part → Prop
  | .V => ∀ k, t.getV k = s.getV k
  | .I => t.I = s.I
  | .pc => t.pc = s.pc
  | .opcode => t.opcode = s.opcode
  | .stack => t.stack = s.stack
  | .sp => t.sp = s.sp
  | .dt => t.dt = s.dt
  | .st => t.st = s.st
  | .fb => t.fb = s.fb
  | .dirty => t.dirty = s.dirty
  | .fault => t.fault = s.fault
  | .faultInfo => t.faultInfo = s.faultInfo
  | .cycles => t.cycles = s.cycles
  | .mem => ∀ a, t.mem.byteAt a = s.mem.byteAt a
  | .font => t.mem.font = s.mem.font
  | .beep => t.beep = s.beep
  | .keyWait => t.keyWait = s.keyWait
  | .warn => t.warn = s.warn
  | .host => t.host = s.host

/-- Every part but the named ones is unchanged: the frame rule (00_scope.md R11). -/
def SameBut (changed : List Part) (s t : State) : Prop := ∀ p, p ∉ changed → p.Same s t

/-- Every general register but the named ones is unchanged. -/
def SameRegsBut (written : List Reg) (s t : State) : Prop := ∀ k, k ∉ written → t.getV k = s.getV k

/-- The instruction at `pc`, if the two bytes there exist and decode. -/
def State.FetchesInstr (s : State) (i : Instr) : Prop :=
  ∃ w, s.fetchWord = some w ∧ decode w = .ok i

/-- What the fault register says is true of the state it halted (60_exceptions.md R200): nothing was
written after the fault was taken, so the condition that raised it still holds. -/
def State.FaultRecordOk (s : State) : Prop :=
  match s.fault with
  | .none => s.faultInfo = 0
  | .stackOverflow => s.sp.val = 16 ∧ s.faultInfo = s.pc.setWidth 17
  | .stackUnderflow => s.sp.val = 0 ∧ s.faultInfo = s.pc.setWidth 17
  | .fetchOutOfRange => s.pc.toNat > 4094 ∧ s.faultInfo = s.pc.setWidth 17
  | .dataOutOfRange => s.I.toNat + 15 > 4095 ∧ s.faultInfo.toNat = max s.I.toNat 4096
  | .keyIndexOutOfRange => 15 < s.faultInfo.toNat ∧ s.faultInfo.toNat ≤ 255

/-- Which outputs a step can raise together (60_exceptions.md R209; 90_conflicts.md C6). -/
def State.OutputsOk (s : State) : Prop :=
  (s.fault ≠ .none → s.beep = false ∧ s.keyWait = false ∧ s.warn = false) ∧
  (s.keyWait = true → s.beep = false ∧ s.warn = false) ∧
  (s.beep = true → s.st = 0)

/-- The bounds on the program counter (10_state.md R23; 40_flow.md R120): every return address on the
stack is at most 4096 and `pc` never passes 4350, so its arithmetic modulo 65536 never wraps. -/
def State.PcBounded (s : State) : Prop :=
  s.pc.toNat ≤ 4350 ∧ ∀ k : Fin 16, (s.stack[k.val]).toNat ≤ 4096

/-- The machine's invariant (10_state.md R39 and the rules above). -/
structure State.Inv (s : State) : Prop where
  /-- Memory is in its canonical form. -/
  mem : s.mem.wf = true
  /-- The fault record is true of the state. -/
  faultRecord : s.FaultRecordOk
  /-- The outputs do not contradict each other. -/
  outputs : s.OutputsOk
  /-- `pc` and the return addresses are bounded. -/
  pcBounded : s.PcBounded

/-! ### The tables of the spec that claims quote -/

/-- How many bytes from `I` an instruction accesses (20_memory.md R67). -/
def blockBytes : Instr → Nat
  | .drw _ _ n => n.val
  | .ldB _ => 3
  | .storeRegs _ | .loadRegs _ => 16
  | .cls | .ret | .jp _ | .call _ | .seImm _ _ | .sneImm _ _ | .seReg _ _ | .ldImm _ _ | .addImm _ _
  | .ldReg _ _ | .orReg _ _ | .andReg _ _ | .xorReg _ _ | .addReg _ _ | .sub _ _ | .shr _ _ | .subn _ _
  | .shl _ _ | .sneReg _ _ | .ldI _ | .jpV0 _ | .rnd _ _ | .skp _ | .sknp _ | .ldVxDT _ | .ldVxK _
  | .ldDTVx _ | .ldSTVx _ | .addI _ | .ldF _ => 0

/-- The `n` bytes from `I` all exist; an empty block always does (43_index_memory.md R164). -/
def State.BlockExists (s : State) (n : Nat) : Prop := n = 0 ∨ s.I.toNat + n ≤ 4096

/-- The condition under which an instruction raises its fault, and what is then recorded: the table of
60_exceptions.md R200 (without its row for the fetch). -/
def FaultsWith (i : Instr) (s : State) (f : FaultCode) (info : Nat) : Prop :=
  match i with
  | .call _ => s.sp.val = 16 ∧ f = .stackOverflow ∧ info = s.pc.toNat
  | .ret => s.sp.val = 0 ∧ f = .stackUnderflow ∧ info = s.pc.toNat
  | .skp x | .sknp x => 15 < (s.getV x).toNat ∧ f = .keyIndexOutOfRange ∧ info = (s.getV x).toNat
  | .drw _ _ _ | .ldB _ | .storeRegs _ | .loadRegs _ =>
    ¬ s.BlockExists (blockBytes i) ∧ f = .dataOutOfRange ∧ info = max s.I.toNat 4096
  | .cls | .jp _ | .seImm _ _ | .sneImm _ _ | .seReg _ _ | .ldImm _ _ | .addImm _ _ | .ldReg _ _
  | .orReg _ _ | .andReg _ _ | .xorReg _ _ | .addReg _ _ | .sub _ _ | .shr _ _ | .subn _ _ | .shl _ _
  | .sneReg _ _ | .ldI _ | .jpV0 _ | .rnd _ _ | .ldVxDT _ | .ldVxK _ | .ldDTVx _ | .ldSTVx _ | .addI _
  | .ldF _ => False

/-- The general registers an instruction may write (10_state.md R40; 42_load_alu.md R153). -/
def writesReg (i : Instr) (k : Reg) : Bool :=
  match i with
  | .ldImm x _ | .addImm x _ | .ldReg x _ | .orReg x _ | .andReg x _ | .xorReg x _ | .rnd x _
  | .ldVxDT x | .ldVxK x => k == x
  | .addReg x _ | .sub x _ | .subn x _ => k == x || k == 15
  | .shr x y | .shl x y => k == x || k == y || k == 15
  | .drw _ _ _ => k == 15
  | .loadRegs _ => true
  | .cls | .ret | .jp _ | .call _ | .seImm _ _ | .sneImm _ _ | .seReg _ _ | .sneReg _ _ | .ldI _ | .jpV0 _
  | .skp _ | .sknp _ | .ldDTVx _ | .ldSTVx _ | .addI _ | .ldF _ | .ldB _ | .storeRegs _ => false

/-- The bytes of memory an instruction may write, from `I` on (20_memory.md R67). -/
def writesByte (i : Instr) (s : State) (a : Nat) : Bool :=
  match i with
  | .ldB _ => decide (s.I.toNat ≤ a) && decide (a < s.I.toNat + 3)
  | .storeRegs _ => decide (s.I.toNat ≤ a) && decide (a < s.I.toNat + 16)
  | .cls | .ret | .jp _ | .call _ | .seImm _ _ | .sneImm _ _ | .seReg _ _ | .ldImm _ _ | .addImm _ _
  | .ldReg _ _ | .orReg _ _ | .andReg _ _ | .xorReg _ _ | .addReg _ _ | .sub _ _ | .shr _ _ | .subn _ _
  | .shl _ _ | .sneReg _ _ | .ldI _ | .jpV0 _ | .rnd _ _ | .drw _ _ _ | .skp _ | .sknp _ | .ldVxDT _
  | .ldVxK _ | .ldDTVx _ | .ldSTVx _ | .addI _ | .ldF _ | .loadRegs _ => false

/-- The parts of the state an instruction may write other than general registers and memory
(10_state.md R40), a latched fault and the hold's output included. -/
def writtenParts : Instr → List Part
  | .cls => [.pc, .fb, .dirty]
  | .ret => [.pc, .sp, .fault, .faultInfo]
  | .call _ => [.pc, .stack, .sp, .fault, .faultInfo]
  | .skp _ | .sknp _ | .ldB _ => [.pc, .fault, .faultInfo]
  | .drw _ _ _ => [.pc, .fb, .dirty, .fault, .faultInfo]
  | .ldVxK _ => [.pc, .keyWait]
  | .ldDTVx _ => [.pc, .dt]
  | .ldSTVx _ => [.pc, .st]
  | .ldI _ | .addI _ | .ldF _ => [.pc, .I]
  | .storeRegs _ | .loadRegs _ => [.pc, .I, .fault, .faultInfo]
  | .jp _ | .seImm _ _ | .sneImm _ _ | .seReg _ _ | .ldImm _ _ | .addImm _ _ | .ldReg _ _ | .orReg _ _
  | .andReg _ _ | .xorReg _ _ | .addReg _ _ | .sub _ _ | .shr _ _ | .subn _ _ | .shl _ _ | .sneReg _ _
  | .jpV0 _ | .rnd _ _ | .ldVxDT _ => [.pc]

/-- The instructions that read `keys` (10_state.md R32). -/
def readsKeys : Instr → Bool
  | .skp _ | .sknp _ | .ldVxK _ => true
  | .cls | .ret | .jp _ | .call _ | .seImm _ _ | .sneImm _ _ | .seReg _ _ | .ldImm _ _ | .addImm _ _
  | .ldReg _ _ | .orReg _ _ | .andReg _ _ | .xorReg _ _ | .addReg _ _ | .sub _ _ | .shr _ _ | .subn _ _
  | .shl _ _ | .sneReg _ _ | .ldI _ | .jpV0 _ | .rnd _ _ | .drw _ _ _ | .ldVxDT _ | .ldDTVx _ | .ldSTVx _
  | .addI _ | .ldF _ | .ldB _ | .storeRegs _ | .loadRegs _ => false

/-- The instructions that read `rand` (10_state.md R32). -/
def readsRand : Instr → Bool
  | .rnd _ _ => true
  | .cls | .ret | .jp _ | .call _ | .seImm _ _ | .sneImm _ _ | .seReg _ _ | .ldImm _ _ | .addImm _ _
  | .ldReg _ _ | .orReg _ _ | .andReg _ _ | .xorReg _ _ | .addReg _ _ | .sub _ _ | .shr _ _ | .subn _ _
  | .shl _ _ | .sneReg _ _ | .ldI _ | .jpV0 _ | .drw _ _ _ | .skp _ | .sknp _ | .ldVxDT _ | .ldVxK _
  | .ldDTVx _ | .ldSTVx _ | .addI _ | .ldF _ | .ldB _ | .storeRegs _ | .loadRegs _ => false

/-- The sprite of `n` rows from `I` with origin (x0, y0) has a set bit over the cell in row `y`, column `x`
(44_display.md R171, R172). -/
def State.SpriteCovers (s : State) (x0 y0 n y x : Nat) : Prop :=
  ∃ r, r < n ∧ ∃ j, j < 8 ∧ y = (y0 + r) % 32 ∧ x = (x0 + j) % 64 ∧
    (s.mem.byteAt (s.I.toNat + r)).getLsbD (7 - j) = true

/-! ### The shapes of an instruction's completion -/

/-- The instruction completes: `V[x]` becomes `v`, `pc` advances by 2, and nothing else changes. -/
def CompletesWriting (i : Instr) (s : State) (x : Reg) (v : Byte) : Prop :=
  ∃ t, exec i s = .next t ∧ t.getV x = v ∧ t.pc = s.pc + 2 ∧ SameRegsBut [x] s t ∧ SameBut [.V, .pc] s t

/-- The instruction completes: `V[x]` becomes the number `r` and `V[15]` the number `flag`, the flag winning
when `x` is 15 (00_scope.md R10); `pc` advances by 2, and nothing else changes. -/
def CompletesWithFlag (i : Instr) (s : State) (x : Reg) (r flag : Nat) : Prop :=
  ∃ t, exec i s = .next t ∧ (x ≠ 15 → (t.getV x).toNat = r) ∧ (t.getV 15).toNat = flag ∧
    t.pc = s.pc + 2 ∧ SameRegsBut [x, 15] s t ∧ SameBut [.V, .pc] s t

/-- The instruction completes: `pc` advances by 4 when the condition holds and by 2 when not, and nothing
else changes (41_skip.md R130). -/
def CompletesSkipping (i : Instr) (s : State) (c : Prop) : Prop :=
  ∃ t, exec i s = .next t ∧ (c → t.pc = s.pc + 4) ∧ (¬ c → t.pc = s.pc + 2) ∧ SameBut [.pc] s t

/-- The instruction completes: `pc` becomes the address `n`, and nothing else changes. -/
def CompletesJumping (i : Instr) (s : State) (n : Nat) : Prop :=
  ∃ t, exec i s = .next t ∧ t.pc.toNat = n ∧ SameBut [.pc] s t

/-- The instruction completes: `I` becomes the number `n`, `pc` advances by 2, and nothing else changes. -/
def CompletesSettingI (i : Instr) (s : State) (n : Nat) : Prop :=
  ∃ t, exec i s = .next t ∧ t.I.toNat = n ∧ t.pc = s.pc + 2 ∧ SameBut [.I, .pc] s t

/-- The instruction latches a fault and changes nothing else (60_exceptions.md R207). -/
def LatchesOnly (i : Instr) (s : State) (f : FaultCode) (info : Nat) : Prop :=
  ∃ t, exec i s = .next t ∧ t.fault = f ∧ t.faultInfo.toNat = info ∧ SameBut [.fault, .faultInfo] s t

end Sys2Proof.Machine
end

