-- ==== Sys2Proof/Certificates/Slice0/Obligations.lean ====
section
/-!
DEFINITION. The statements for the provers, from the numbered rules of spec/. Each docstring names its rule;
a statement that rests on a decision or an inference of the spec says so. Every frame clause (`SameBut`, `SameRegsBut`) is the
frame rule 00_scope.md R11, the spec's decision D10, and is claimed for no other rule.
-/
open Sys2Proof Sys2Proof.Machine

/-! ### Encoding -/

/-- 30_encoding.md R94, R92: decoding an encoded instruction gives it back, from the word and from bytes, with
every operand at every value. -/
def Obligations.DecodeOfEncodeIsTheInstruction : Prop :=
  ∀ (i : Instr) (rest : List Byte),
    decode (encode i) = .ok i ∧ decodeBytes (encodeBytes i ++ rest) = .ok (i, rest)

/-- 30_encoding.md R94: no two words decode to one instruction. -/
def Obligations.EncodeOfDecodeIsTheWord : Prop :=
  ∀ (w : Word) (i : Instr), decode w = .ok i → encode i = w

/-- 30_encoding.md R94, R95: a word decodes exactly when some row of the opcode table holds for it, and then
the row of the decoded instruction holds. -/
def Obligations.DecodeAcceptsExactlyTheTable : Prop :=
  ∀ w : Word, ((∃ i, decode w = .ok i) ↔ wordWellFormed w = true) ∧
    ∀ i, decode w = .ok i → i.row.holds w = true

/-- 30_encoding.md R94: "the rows are mutually exclusive". -/
def Obligations.OpcodeTableRowsExcludeEachOther : Prop :=
  opcodeTable.Pairwise fun r q => ∀ w, r.holds w = true → q.holds w = false

/-- Words of the spec's own examples, read as the instructions they stand for (40_flow.md R121, R122, R123;
42_load_alu.md R141, R149; 43_index_memory.md R160; 44_display.md R171; 45_timer_key.md R183). -/
def Obligations.SpecExampleWordsDecode : Prop :=
  decode 0x1204 = .ok (.jp 0x204) ∧ decode 0x2210 = .ok (.call 0x210) ∧ decode 0xB300 = .ok (.jpV0 0x300) ∧
  decode 0x6A12 = .ok (.ldImm 10 0x12) ∧ decode 0x8126 = .ok (.shr 1 2) ∧ decode 0xA300 = .ok (.ldI 0x300) ∧
  decode 0xD011 = .ok (.drw 0 1 1) ∧ decode 0xF50A = .ok (.ldVxK 5)

/-! ### The step -/

/-- 10_state.md R35 parts 0 to 3, 20_memory.md R64: an unhalted machine whose two bytes at `pc` exist and decode
runs exactly that instruction, with the outputs at 0 and `opcode` loaded; what follows is `finishStep`. -/
def Obligations.StepRunsDecodedInstruction : Prop :=
  ∀ (s : State) (w : Word) (i : Instr), s.fault = .none → s.pc.toNat ≤ 4094 →
    w.toNat = 256 * (s.mem.byteAt s.pc.toNat).toNat + (s.mem.byteAt (s.pc.toNat + 1)).toNat →
    decode w = .ok i →
    step s = finishStep (exec i { s with beep := false, keyWait := false, warn := false, opcode := w })

/-- 10_state.md R35 parts 4 and 5: what the end of a step adds to the state the instruction left. A completed
step counts a cycle and ticks; a faulted or held one adds nothing; both present the next inputs, the
key vector staying unless the host sets it (70_reset_and_hazards.md R233; log entry 1). -/
def Obligations.EndOfStepCountsAndTicks : Prop :=
  ∀ u : State, ∃ t, finishStep (.next u) = .next t ∧ t.host.draws = u.host.draws + 1 ∧ t.host.loadOpen = false ∧
    t.host.keys = nextKeys (Config.hostSetKeys u.host.draws) u.host.keys ∧
    (u.fault = .none ∧ u.keyWait = false →
      t.cycles = u.cycles + 1 ∧ t.dt.toNat = u.dt.toNat - 1 ∧ t.st.toNat = u.st.toNat - 1 ∧
      (t.beep = true ↔ u.beep = true ∨ u.st.toNat = 1) ∧ SameBut [.cycles, .dt, .st, .beep, .host] u t) ∧
    (¬ (u.fault = .none ∧ u.keyWait = false) → SameBut [.host] u t)

/-- No step and no program ends the model: every condition the spec names is a next state (60_exceptions.md R207,
R208; the choice that faults are latched is the spec's decision D8). -/
def Obligations.EveryStepAnswersANextState : Prop :=
  ∀ s : State, ∃ t, step s = .next t

/-- 60_exceptions.md R212, R213: the timers and `cycles` count completed steps; `dt` and `st` go down once in every
completed step that does not load them, and `beep` marks the step whose tick takes `st` from 1 to 0. A step that
faults or holds (decisions D8, D13) counts nothing. -/
def Obligations.TimersCountCompletedSteps : Prop :=
  ∀ s t : State, s.fault = .none → step s = .next t →
    (t.fault = .none ∧ t.keyWait = false →
      t.cycles = s.cycles + 1 ∧
      ((∀ x, decode t.opcode ≠ .ok (.ldDTVx x)) → t.dt.toNat = s.dt.toNat - 1) ∧
      ((∀ x, decode t.opcode ≠ .ok (.ldSTVx x)) →
        t.st.toNat = s.st.toNat - 1 ∧ (t.beep = true ↔ s.st.toNat = 1))) ∧
    (¬ (t.fault = .none ∧ t.keyWait = false) →
      t.cycles = s.cycles ∧ t.dt = s.dt ∧ t.st = s.st ∧ t.beep = false)

/-- 30_encoding.md R95 (the `warn` pulse is decision D17): a word no row of the table holds for completes as a no-op
with `warn`. -/
def Obligations.UnknownWordIsANoOpWithWarning : Prop :=
  ∀ (s : State) (w : Word), s.fault = .none → s.fetchWord = some w → wordWellFormed w = false →
    ∃ t, step s = .next t ∧ t.warn = true ∧ t.keyWait = false ∧ t.opcode = w ∧ t.pc = s.pc + 2 ∧
      t.cycles = s.cycles + 1 ∧ t.dt.toNat = s.dt.toNat - 1 ∧ t.st.toNat = s.st.toNat - 1 ∧
      (t.beep = true ↔ s.st.toNat = 1) ∧
      SameBut [.pc, .opcode, .cycles, .dt, .st, .beep, .keyWait, .warn, .host] s t

/-- 10_state.md R33, 30_encoding.md R95: `warn` is 1 after a step exactly when it executed UNKNOWN. -/
def Obligations.WarnMarksExactlyTheUnknownSteps : Prop :=
  ∀ s t : State, step s = .next t →
    (t.warn = true ↔ s.fault = .none ∧ ∃ w, s.fetchWord = some w ∧ wordWellFormed w = false)

/-! ### Faults -/

/-- 60_exceptions.md R203, R207, 20_memory.md R64 (decisions D6, D8): a fetch beyond 4094 latches code 3 with `pc`,
and `opcode` keeps the previous word. -/
def Obligations.FetchBeyondMemoryLatchesTheFault : Prop :=
  ∀ s : State, s.fault = .none → s.pc.toNat > 4094 →
    ∃ t, step s = .next t ∧ t.fault = .fetchOutOfRange ∧ t.fault.code = 3 ∧ t.faultInfo.toNat = s.pc.toNat ∧
      t.beep = false ∧ t.keyWait = false ∧ t.warn = false ∧
      SameBut [.fault, .faultInfo, .beep, .keyWait, .warn, .host] s t

/-- 60_exceptions.md R200, R207, R209 (decisions D5 to D8): each instruction latches a fault exactly under its row of
the fault table, with what the row records, and then changes nothing else. -/
def Obligations.InstructionsFaultExactlyByTheFaultTable : Prop :=
  ∀ (i : Instr) (s : State), s.fault = .none → ∃ t, exec i s = .next t ∧
    (t.fault = .none ∧ t.faultInfo = s.faultInfo ∧ (∀ f info, ¬ FaultsWith i s f info) ∨
     t.fault ≠ .none ∧ FaultsWith i s t.fault t.faultInfo.toNat ∧ SameBut [.fault, .faultInfo] s t)

/-- 60_exceptions.md R207 (decision D8): a step that takes a fault in its instruction is precise: `opcode` holds the
faulting word, the outputs are 0, and nothing else but the fault register has changed. -/
def Obligations.FaultingStepIsPrecise : Prop :=
  ∀ (s t : State) (w : Word), s.fault = .none → s.fetchWord = some w → step s = .next t → t.fault ≠ .none →
    t.opcode = w ∧ t.pc = s.pc ∧ t.cycles = s.cycles ∧ t.beep = false ∧ t.keyWait = false ∧ t.warn = false ∧
      SameBut [.fault, .faultInfo, .opcode, .beep, .keyWait, .warn, .host] s t

/-- 60_exceptions.md R208 (decision D8): after a fault any number of steps changes no state of CORE; from the first of
them on the outputs are 0. -/
def Obligations.FaultedMachineStaysHalted : Prop :=
  ∀ (s : State) (n : Nat), s.fault ≠ .none → ∃ t, Host.Core.run Sys2Proof.core n s = .next t ∧
    SameBut [.beep, .keyWait, .warn, .host] s t ∧
    (0 < n → t.beep = false ∧ t.keyWait = false ∧ t.warn = false)

/-! ### Control transfer (40_flow.md) -/

/-- 40_flow.md R121: JP. -/
def Obligations.JumpSetsPc : Prop :=
  ∀ nnn : Addr12, decode (wordNNN 0x1 nnn) = .ok (.jp nnn) ∧
    ∀ s : State, CompletesJumping (.jp nnn) s nnn.toNat

/-- 40_flow.md R123: JP V0, the sum modulo 65536, always register 0. -/
def Obligations.JumpWithOffsetAddsV0 : Prop :=
  ∀ nnn : Addr12, decode (wordNNN 0xB nnn) = .ok (.jpV0 nnn) ∧
    ∀ s : State, CompletesJumping (.jpV0 nnn) s (((s.getV 0).toNat + nnn.toNat) % 65536)

/-- 40_flow.md R122: CALL with room pushes `pc + 2` into slot `sp` and jumps; the other slots keep their values. -/
def Obligations.CallPushesTheReturnAddress : Prop :=
  ∀ (nnn : Addr12) (s : State) (h : s.sp.val < 16), ∃ t, exec (.call nnn) s = .next t ∧
    t.pc.toNat = nnn.toNat ∧ t.sp.val = s.sp.val + 1 ∧ t.stack[s.sp.val] = s.pc + 2 ∧
    (∀ k : Fin 16, k.val ≠ s.sp.val → t.stack[k.val] = s.stack[k.val]) ∧ SameBut [.pc, .sp, .stack] s t

/-- 40_flow.md R120: RET with a return address on the stack pops it into `pc` as it is; the slots keep their values. -/
def Obligations.ReturnPopsThePc : Prop :=
  ∀ (s : State) (h : 0 < s.sp.val), ∃ t, exec .ret s = .next t ∧
    t.pc = s.stack[s.sp.val - 1] ∧ t.sp.val = s.sp.val - 1 ∧ SameBut [.pc, .sp] s t

/-- 40_flow.md R120, R122, 60_exceptions.md R201, R202 (fatal by decisions D5, D8): CALL on the full stack and RET on
the empty one latch their faults with `pc` and change nothing else. -/
def Obligations.StackFaultsLatch : Prop :=
  ∀ s : State,
    (s.sp.val = 16 → ∀ nnn, LatchesOnly (.call nnn) s .stackOverflow s.pc.toNat) ∧
    (s.sp.val = 0 → LatchesOnly .ret s .stackUnderflow s.pc.toNat)

/-- 40_flow.md R120, R122: RET undoes CALL: control is at the address after the call, at the same depth, and the
return addresses below are as they were. -/
def Obligations.ReturnAfterCallResumesAfterIt : Prop :=
  ∀ (nnn : Addr12) (s t : State), s.sp.val < 16 → exec (.call nnn) s = .next t →
    ∃ u, exec .ret t = .next u ∧ u.pc = s.pc + 2 ∧ u.sp = s.sp ∧
      (∀ k : Fin 16, k.val < s.sp.val → u.stack[k.val] = s.stack[k.val]) ∧ SameBut [.pc, .stack] s u

/-! ### Skips (41_skip.md) -/

/-- 41_skip.md R131, R132: SE and SNE with an immediate. -/
def Obligations.ImmediateSkipsCompare : Prop :=
  ∀ (x : Reg) (nn : Byte),
    decode (wordXNN 0x3 x nn) = .ok (.seImm x nn) ∧ decode (wordXNN 0x4 x nn) = .ok (.sneImm x nn) ∧
    ∀ s : State, CompletesSkipping (.seImm x nn) s (s.getV x = nn) ∧
      CompletesSkipping (.sneImm x nn) s (s.getV x ≠ nn)

/-- 41_skip.md R133, R134: SE and SNE of two registers. -/
def Obligations.RegisterSkipsCompare : Prop :=
  ∀ x y : Reg,
    decode (wordXYN 0x5 x y 0) = .ok (.seReg x y) ∧ decode (wordXYN 0x9 x y 0) = .ok (.sneReg x y) ∧
    (∀ n, n ≠ 0 → decode (wordXYN 0x5 x y n) = .error .family5 ∧ decode (wordXYN 0x9 x y n) = .error .family9) ∧
    ∀ s : State, CompletesSkipping (.seReg x y) s (s.getV x = s.getV y) ∧
      CompletesSkipping (.sneReg x y) s (s.getV x ≠ s.getV y)

/-- 41_skip.md R135, R136, 60_exceptions.md R205 (decision D7): SKP and SKNP sample the key named by V[X]; an index
above 15 latches KeyIndexOutOfRange with V[X]. -/
def Obligations.KeySkipsSampleTheKeyVector : Prop :=
  ∀ (x : Reg) (s : State),
    ((s.getV x).toNat ≤ 15 →
      CompletesSkipping (.skp x) s (s.host.keys.getLsbD (s.getV x).toNat = true) ∧
      CompletesSkipping (.sknp x) s (s.host.keys.getLsbD (s.getV x).toNat = false)) ∧
    (15 < (s.getV x).toNat →
      LatchesOnly (.skp x) s .keyIndexOutOfRange (s.getV x).toNat ∧
      LatchesOnly (.sknp x) s .keyIndexOutOfRange (s.getV x).toNat)

/-! ### Loads and the ALU (42_load_alu.md) -/

/-- 42_load_alu.md R141: LD Vx, NN. -/
def Obligations.LoadImmediateWritesOneRegister : Prop :=
  ∀ (x : Reg) (nn : Byte), decode (wordXNN 0x6 x nn) = .ok (.ldImm x nn) ∧
    ∀ s : State, CompletesWriting (.ldImm x nn) s x nn

/-- 42_load_alu.md R142: ADD Vx, NN, modulo 256 and no flag. -/
def Obligations.AddImmediateWrapsWithoutFlag : Prop :=
  ∀ (x : Reg) (nn : Byte), decode (wordXNN 0x7 x nn) = .ok (.addImm x nn) ∧
    ∀ s : State, CompletesWriting (.addImm x nn) s x (BitVec.ofNat 8 (((s.getV x).toNat + nn.toNat) % 256))

/-- 42_load_alu.md R143 to R146 (digits and destination are marked general knowledge there; no flag is decision D10):
copy, OR, AND, XOR write V[X] alone. -/
def Obligations.CopyAndLogicWriteOneRegister : Prop :=
  ∀ (x y : Reg) (s : State),
    CompletesWriting (.ldReg x y) s x (s.getV y) ∧
    CompletesWriting (.orReg x y) s x (s.getV x ||| s.getV y) ∧
    CompletesWriting (.andReg x y) s x (s.getV x &&& s.getV y) ∧
    CompletesWriting (.xorReg x y) s x (s.getV x ^^^ s.getV y)

/-- 42_load_alu.md R147: ADD Vx, Vy with carry out; the flag is written last (decision D9). -/
def Obligations.AddRegistersSetsCarry : Prop :=
  ∀ (x y : Reg) (s : State),
    CompletesWithFlag (.addReg x y) s x (((s.getV x).toNat + (s.getV y).toNat) % 256)
      (if (s.getV x).toNat + (s.getV y).toNat > 255 then 1 else 0)

/-- 42_load_alu.md R148, R150: SUB and SUBN with the not-borrow flag, written last (decision D9; SUBN's digit and
destination are marked general knowledge). -/
def Obligations.SubtractionsSetNotBorrow : Prop :=
  ∀ (x y : Reg) (s : State),
    CompletesWithFlag (.sub x y) s x (((s.getV x).toNat + 256 - (s.getV y).toNat) % 256)
      (if (s.getV y).toNat ≤ (s.getV x).toNat then 1 else 0) ∧
    CompletesWithFlag (.subn x y) s x (((s.getV y).toNat + 256 - (s.getV x).toNat) % 256)
      (if (s.getV x).toNat ≤ (s.getV y).toNat then 1 else 0)

/-- 42_load_alu.md R149: SHR shifts V[Y] into V[Y] and V[X]; the dropped bit is written last (decision D9). -/
def Obligations.ShiftRightWritesBothRegisters : Prop :=
  ∀ (x y : Reg) (s : State), ∃ t, exec (.shr x y) s = .next t ∧
    (x ≠ 15 → (t.getV x).toNat = (s.getV y).toNat / 2) ∧
    (y ≠ 15 → (t.getV y).toNat = (s.getV y).toNat / 2) ∧
    (t.getV 15).toNat = (s.getV y).toNat % 2 ∧
    t.pc = s.pc + 2 ∧ SameRegsBut [x, y, 15] s t ∧ SameBut [.V, .pc] s t

/-- 42_load_alu.md R151: SHL shifts V[Y] into V[Y] and V[X]; the dropped bit is written last (decision D9). -/
def Obligations.ShiftLeftWritesBothRegisters : Prop :=
  ∀ (x y : Reg) (s : State), ∃ t, exec (.shl x y) s = .next t ∧
    (x ≠ 15 → (t.getV x).toNat = (s.getV y).toNat * 2 % 256) ∧
    (y ≠ 15 → (t.getV y).toNat = (s.getV y).toNat * 2 % 256) ∧
    (t.getV 15).toNat = (s.getV y).toNat / 128 ∧
    t.pc = s.pc + 2 ∧ SameRegsBut [x, y, 15] s t ∧ SameBut [.V, .pc] s t

/-- 42_load_alu.md R152: RND writes this step's free byte masked by NN (decision D3; log entry 1). -/
def Obligations.RandomByteIsMasked : Prop :=
  ∀ (x : Reg) (nn : Byte) (s : State), CompletesWriting (.rnd x nn) s x (s.host.rand &&& nn)

/-! ### The address register and memory (43_index_memory.md) -/

/-- 43_index_memory.md R160: LD I, NNN. -/
def Obligations.LoadAddressRegister : Prop :=
  ∀ nnn : Addr12, decode (wordNNN 0xA nnn) = .ok (.ldI nnn) ∧
    ∀ s : State, CompletesSettingI (.ldI nnn) s nnn.toNat

/-- 43_index_memory.md R161: ADD I, Vx modulo 65536, V[15] not written (decision D10). -/
def Obligations.AddToAddressRegisterWraps : Prop :=
  ∀ (x : Reg) (s : State), CompletesSettingI (.addI x) s ((s.I.toNat + (s.getV x).toNat) % 65536)

/-- 43_index_memory.md R162: LD F multiplies the whole byte by 5. -/
def Obligations.GlyphAddressIsFiveTimes : Prop :=
  ∀ x : Reg, decode (wordXNN 0xF x 0x29) = .ok (.ldF x) ∧
    ∀ s : State, CompletesSettingI (.ldF x) s (5 * (s.getV x).toNat)

/-- 43_index_memory.md R163: LD B stores the hundreds, tens and ones of V[X] at I, I + 1, I + 2, and nothing else
changes in memory or elsewhere. -/
def Obligations.DecimalDigitsAreStored : Prop :=
  ∀ (x : Reg) (s : State), s.mem.wf = true → s.I.toNat + 2 ≤ 4095 → ∃ t, exec (.ldB x) s = .next t ∧
    (t.mem.byteAt s.I.toNat).toNat = (s.getV x).toNat / 100 ∧
    (t.mem.byteAt (s.I.toNat + 1)).toNat = (s.getV x).toNat / 10 % 10 ∧
    (t.mem.byteAt (s.I.toNat + 2)).toNat = (s.getV x).toNat % 10 ∧
    (∀ a, a < s.I.toNat ∨ s.I.toNat + 2 < a → t.mem.byteAt a = s.mem.byteAt a) ∧
    t.pc = s.pc + 2 ∧ SameBut [.mem, .pc] s t

/-- 43_index_memory.md R165: LD [I], Vx stores all sixteen registers whatever X is, and advances I by 16. -/
def Obligations.StoreRegistersStoresAllSixteen : Prop :=
  ∀ (x : Reg) (s : State), s.mem.wf = true → s.I.toNat + 15 ≤ 4095 → ∃ t, exec (.storeRegs x) s = .next t ∧
    (∀ k : Reg, t.mem.byteAt (s.I.toNat + k.val) = s.getV k) ∧
    (∀ a, a < s.I.toNat ∨ s.I.toNat + 15 < a → t.mem.byteAt a = s.mem.byteAt a) ∧
    t.I.toNat = s.I.toNat + 16 ∧ t.pc = s.pc + 2 ∧ SameBut [.mem, .I, .pc] s t

/-- 43_index_memory.md R166: LD Vx, [I] loads all sixteen registers whatever X is, and advances I by 16. -/
def Obligations.LoadRegistersLoadsAllSixteen : Prop :=
  ∀ (x : Reg) (s : State), s.I.toNat + 15 ≤ 4095 → ∃ t, exec (.loadRegs x) s = .next t ∧
    (∀ k : Reg, t.getV k = s.mem.byteAt (s.I.toNat + k.val)) ∧
    t.I.toNat = s.I.toNat + 16 ∧ t.pc = s.pc + 2 ∧ SameBut [.V, .I, .pc] s t

/-- 43_index_memory.md R164 (decision D6): a block that is not empty and reaches beyond 4095 latches DataOutOfRange
with the lowest absent address, and the instruction does nothing else. -/
def Obligations.AbsentBlockLatchesDataFault : Prop :=
  ∀ (i : Instr) (s : State), 0 < blockBytes i → s.I.toNat + (blockBytes i - 1) > 4095 →
    LatchesOnly i s .dataOutOfRange (max s.I.toNat 4096)

/-- 43_index_memory.md R165, R166 (the document's example E7): storing all registers and loading them again from the
same I restores every register, whatever the registers held in between. -/
def Obligations.LoadAfterStoreRestoresRegisters : Prop :=
  ∀ (x y : Reg) (s t : State) (scrambled : Vector Byte 16), s.mem.wf = true → s.I.toNat + 15 ≤ 4095 →
    exec (.storeRegs x) s = .next t →
    ∃ u, exec (.loadRegs y) { t with V := scrambled, I := s.I } = .next u ∧ (∀ k, u.getV k = s.getV k) ∧ u.I = t.I

/-- 20_memory.md R73 (an inference of the spec): a block store over the next instruction is what the next step
fetches. -/
def Obligations.StoreIsSeenByTheNextFetch : Prop :=
  ∀ (s : State) (w : Word) (x : Reg), s.fault = .none → s.fetchWord = some w → decode w = .ok (.storeRegs x) →
    s.mem.wf = true → s.I = s.pc + 2 → s.I.toNat + 15 ≤ 4095 →
    ∃ t, step s = .next t ∧ ∃ v, t.fetchWord = some v ∧ v.toNat = 256 * (s.getV 0).toNat + (s.getV 1).toNat

/-! ### Display (44_display.md) -/

/-- 44_display.md R170: CLS. -/
def Obligations.ClearUnlightsEveryCell : Prop :=
  (∀ w, decode w = .ok .cls ↔ w = 0x00E0) ∧
  ∀ s : State, ∃ t, exec .cls s = .next t ∧ (∀ y x, y < 32 → x < 64 → fbCell t.fb y x = false) ∧
    t.dirty = true ∧ t.pc = s.pc + 2 ∧ SameBut [.fb, .dirty, .pc] s t

/-- 44_display.md R171: DRW toggles exactly the cells under a set sprite bit, both axes wrapping per pixel, marks
the framebuffer dirty and writes V[15] alone; N = 0 draws nothing (decision D12). -/
def Obligations.DrawTogglesTheCoveredCells : Prop :=
  ∀ (x y : Reg) (n : Fin 16) (s : State), s.BlockExists n.val → ∃ t, exec (.drw x y n) s = .next t ∧
    (∀ b a, b < 32 → a < 64 →
      (s.SpriteCovers (s.getV x).toNat (s.getV y).toNat n.val b a → fbCell t.fb b a = !fbCell s.fb b a) ∧
      (¬ s.SpriteCovers (s.getV x).toNat (s.getV y).toNat n.val b a → fbCell t.fb b a = fbCell s.fb b a)) ∧
    t.dirty = true ∧ t.pc = s.pc + 2 ∧ SameRegsBut [15] s t ∧ SameBut [.V, .fb, .dirty, .pc] s t

/-- 44_display.md R172: the collision bit is 1 exactly when a pixel went from lit to unlit in this draw, and it is
delivered to V[15] as the byte 0 or 1. -/
def Obligations.CollisionBitIsTheOrOverPixels : Prop :=
  ∀ (x y : Reg) (n : Fin 16) (s t : State), s.BlockExists n.val → exec (.drw x y n) s = .next t →
    ((∃ r, r < n.val ∧ ∃ j, j < 8 ∧ (s.mem.byteAt (s.I.toNat + r)).getLsbD (7 - j) = true ∧
        fbCell s.fb (((s.getV y).toNat + r) % 32) (((s.getV x).toNat + j) % 64) = true) →
      t.getV 15 = 1) ∧
    ((¬ ∃ r, r < n.val ∧ ∃ j, j < 8 ∧ (s.mem.byteAt (s.I.toNat + r)).getLsbD (7 - j) = true ∧
        fbCell s.fb (((s.getV y).toNat + r) % 32) (((s.getV x).toNat + j) % 64) = true) →
      t.getV 15 = 0)

/-- 44_display.md R173: drawing the same sprite twice at the same place restores the framebuffer. -/
def Obligations.DrawingTwiceRestoresTheFramebuffer : Prop :=
  ∀ (x y : Reg) (n : Fin 16) (s t : State), s.BlockExists n.val → exec (.drw x y n) s = .next t →
    ∃ u, exec (.drw x y n) { t with V := s.V } = .next u ∧
      ∀ b a, b < 32 → a < 64 → fbCell u.fb b a = fbCell s.fb b a

/-! ### Timers and the key wait (45_timer_key.md) -/

/-- 45_timer_key.md R180: LD Vx, DT reads `dt` as it stood when the step began; the step's tick then decrements `dt`
without affecting V[X]. -/
def Obligations.ReadDelayTimerBeforeTheTick : Prop :=
  ∀ x : Reg, decode (wordXNN 0xF x 0x07) = .ok (.ldVxDT x) ∧
    (∀ s : State, CompletesWriting (.ldVxDT x) s x s.dt) ∧
    ∀ (s : State) (w : Word), s.fault = .none → s.fetchWord = some w → decode w = .ok (.ldVxDT x) →
      ∃ t, step s = .next t ∧ t.getV x = s.dt ∧ t.dt.toNat = s.dt.toNat - 1

/-- 45_timer_key.md R181: LD DT, Vx; the value left at the end of the step is one less (the inference the rule marks). -/
def Obligations.SetDelayTimerThenTick : Prop :=
  ∀ x : Reg,
    (∀ s : State, ∃ t, exec (.ldDTVx x) s = .next t ∧ t.dt = s.getV x ∧ t.pc = s.pc + 2 ∧ SameBut [.dt, .pc] s t) ∧
    ∀ (s : State) (w : Word), s.fault = .none → s.fetchWord = some w → decode w = .ok (.ldDTVx x) →
      ∃ t, step s = .next t ∧ t.dt.toNat = (s.getV x).toNat - 1

/-- 45_timer_key.md R182: LD ST, Vx; the same step's tick decrements the new value, and beeps when it was 1. -/
def Obligations.SetSoundTimerThenTick : Prop :=
  ∀ x : Reg, decode (wordXNN 0xF x 0x18) = .ok (.ldSTVx x) ∧
    (∀ s : State, ∃ t, exec (.ldSTVx x) s = .next t ∧ t.st = s.getV x ∧ t.pc = s.pc + 2 ∧ SameBut [.st, .pc] s t) ∧
    ∀ (s : State) (w : Word), s.fault = .none → s.fetchWord = some w → decode w = .ok (.ldSTVx x) →
      ∃ t, step s = .next t ∧ t.st.toNat = (s.getV x).toNat - 1 ∧ (t.beep = true ↔ (s.getV x).toNat = 1)

/-- 45_timer_key.md R183: LD Vx, K with a key pressed writes the lowest-indexed pressed key and completes. -/
def Obligations.KeyWaitTakesTheLowestKey : Prop :=
  ∀ (x : Reg) (s : State), s.host.keys ≠ 0 → ∃ t, exec (.ldVxK x) s = .next t ∧
    (t.getV x).toNat < 16 ∧ s.host.keys.getLsbD (t.getV x).toNat = true ∧
    (∀ j, j < (t.getV x).toNat → s.host.keys.getLsbD j = false) ∧
    t.keyWait = s.keyWait ∧ t.pc = s.pc + 2 ∧ SameRegsBut [x] s t ∧ SameBut [.V, .pc] s t

/-- 45_timer_key.md R183, 60_exceptions.md R219 (decision D13): with no key pressed the step holds: `key_wait` is 1,
`opcode` holds the word, and nothing is committed; the step that then sees a key completes with the one tick. -/
def Obligations.KeyWaitHoldsUntilAKey : Prop :=
  ∀ (x : Reg) (s : State) (w : Word), s.fault = .none → s.fetchWord = some w → decode w = .ok (.ldVxK x) →
    s.host.keys = 0 → ∃ t, step s = .next t ∧ t.keyWait = true ∧ t.opcode = w ∧ t.beep = false ∧ t.warn = false ∧
      SameBut [.opcode, .beep, .keyWait, .warn, .host] s t ∧
      ∀ keys : BitVec 16, keys ≠ 0 → ∃ u, step (t.setKeys keys) = .next u ∧ u.keyWait = false ∧
        keys.getLsbD (u.getV x).toNat = true ∧ u.pc = s.pc + 2 ∧ u.cycles = s.cycles + 1 ∧
        u.dt.toNat = s.dt.toNat - 1 ∧ u.st.toNat = s.st.toNat - 1

/-! ### Whole-machine rules -/

/-- 10_state.md R40, 20_memory.md R67, 00_scope.md R11 (decision D10): each instruction changes only what its row of
the access table says it writes: these parts, these registers, these bytes. -/
def Obligations.InstructionsWriteOnlyTheirTableRow : Prop :=
  ∀ (i : Instr) (s t : State), s.mem.wf = true → exec i s = .next t →
    (∀ p, p ∉ writtenParts i → p ≠ .V → p ≠ .mem → p.Same s t) ∧
    (∀ k, writesReg i k = false → t.getV k = s.getV k) ∧
    (∀ a, writesByte i s a = false → t.mem.byteAt a = s.mem.byteAt a)

/-- 10_state.md R32 (decisions D2, D3): an instruction that does not read an input does the same for every value of
it. 70_reset_and_hazards.md R233, R235: `set_keys` replaces the whole vector and nothing else, and through any moves
of the host without another `set_keys`, steps and holds among them, the vector stays. -/
def Obligations.InputsReachOnlyTheirReaders : Prop :=
  (∀ (i : Instr) (s t : State), exec i s = .next t →
    (readsKeys i = false → ∀ keys, exec i (s.setKeys keys) = .next (t.setKeys keys)) ∧
    (readsRand i = false → ∀ b, exec i (s.supplyRand b) = .next (t.supplyRand b))) ∧
  (∀ (s : State) (keys : BitVec 16), ∃ t, s.move (.setKeys keys) = .next t ∧ t.host = { s.host with keys := keys } ∧
    SameBut [.host] s t) ∧
  ∀ (s t : State) (ms : List HostMove), (∀ keys, .setKeys keys ∉ ms) → s.moves ms = .next t →
    t.host.keys = s.host.keys

/-- 10_state.md R24, R28, R30: no instruction reads `opcode`, `cycles` or `dirty`: with other values of them every
register, the memory, `I`, `pc`, the stack, the timers and the framebuffer end up the same. -/
def Obligations.HiddenStateDoesNotReachPrograms : Prop :=
  ∀ (i : Instr) (s t : State) (w : Word) (n : Nat) (d : Bool), exec i s = .next t →
    ∃ u, exec i { s with opcode := w, cycles := n, dirty := d } = .next u ∧ SameBut [.opcode, .cycles, .dirty] t u

/-- 70_reset_and_hazards.md R239 (decision D19): from a state at rest a step changes nothing but `cycles`, `opcode`,
the timers and the outputs, and the state is at rest at the same address. -/
def Obligations.AtRestStaysAtRest : Prop :=
  ∀ (s t : State) (a : Word), s.AtRest a → step s = .next t →
    t.AtRest a ∧ t.opcode = 0x1000 ||| a ∧ t.cycles = s.cycles + 1 ∧
      SameBut [.cycles, .opcode, .dt, .st, .beep, .keyWait, .warn, .host] s t

/-- 10_state.md R39 and 60_exceptions.md R200, R209, 10_state.md R23, 40_flow.md R120 (inferences of the spec): every step
keeps the invariant: canonical memory, a true fault record, consistent outputs, a bounded pc. -/
def Obligations.EveryStepKeepsTheMachineInvariant : Prop :=
  ∀ s t : State, s.Inv → step s = .next t → t.Inv

/-- 70_reset_and_hazards.md R240: every move of the host, loads and resets at any time among them, keeps the invariant. -/
def Obligations.EveryHostMoveKeepsTheMachineInvariant : Prop :=
  ∀ (s t : State) (m : HostMove), s.Inv → s.move m = .next t → t.Inv

/-- The invariant holds after reset for every FONT, and at `State.reset`. -/
def Obligations.ResetMeetsTheMachineInvariant : Prop :=
  (∀ font, (State.resetWith font).Inv) ∧ State.reset.Inv

/-- 10_state.md R23 (an inference of the spec): in a state that meets the invariant the default next pc and a taken
skip never wrap, once the fetch succeeded. -/
def Obligations.PcNeverWrapsInARun : Prop :=
  ∀ s t : State, s.Inv → s.fault = .none → step s = .next t → t.pc.toNat ≤ 4350 ∧
    (t.fault = .none → s.pc.toNat ≤ 4094 ∧ (s.pc + 4).toNat = s.pc.toNat + 4)

/-! ### Reset and the host (70_reset_and_hazards.md) -/

/-- 10_state.md R38, 70_reset_and_hazards.md R230 (the values the document does not state are decision D14): reset at
any time leaves every element at its reset value, memory holding FONT at 0 to 79 and 0 elsewhere. -/
def Obligations.ResetLeavesTheResetValues : Prop :=
  ∀ s t : State, s.move .reset = .next t →
    (∀ k, t.getV k = 0) ∧ t.I = 0 ∧ t.pc.toNat = 512 ∧ t.opcode = 0 ∧ t.sp.val = 0 ∧
    (∀ k : Fin 16, t.stack[k.val] = 0) ∧ t.dt = 0 ∧ t.st = 0 ∧ (∀ y x, fbCell t.fb y x = false) ∧
    t.dirty = false ∧ t.fault = .none ∧ t.faultInfo = 0 ∧ t.cycles = 0 ∧
    (∀ a (h : a < 80), t.mem.byteAt a = s.mem.font[a]) ∧ (∀ a, 80 ≤ a → t.mem.byteAt a = 0) ∧
    t.beep = false ∧ t.keyWait = false ∧ t.warn = false

/-- 70_reset_and_hazards.md R232, 60_exceptions.md R218 (once and before the first step is decision D18): `load_rom`
copies the bytes verbatim to 512 on and changes nothing else of CORE; a ROM over 3584 bytes changes nothing. -/
def Obligations.LoadRomCopiesVerbatimOrNotAtAll : Prop :=
  ∀ (s : State) (rom : List Byte), s.mem.wf = true → s.host.loadOpen = true →
    (rom.length ≤ 3584 → ∃ t, s.loadRom rom = .ok t ∧
      (∀ k (h : k < rom.length), t.mem.byteAt (512 + k) = rom[k]) ∧
      (∀ a, a < 512 ∨ 512 + rom.length ≤ a → t.mem.byteAt a = s.mem.byteAt a) ∧
      t.host.keys = s.host.keys ∧ t.host.rand = s.host.rand ∧ t.host.loadOpen = false ∧ SameBut [.mem, .host] s t) ∧
    (rom.length > 3584 → s.loadRom rom = .error .romTooLarge ∧ s.move (.loadRom rom) = .next s)
end

