-- ==== Sys2Proof/Laws/State.lean ====
section
/-!
SUPPORT. What each update of the state does to each field: one lemma per field per update, true by rfl, so
that no later proof unfolds a record update.
-/
namespace Sys2Proof.Machine

variable (s : State)

/-! ### `State.setV` -/

@[simp] theorem setV_V (x : Reg) (b : Byte) : (s.setV x b).V = s.V.set x.val b := rfl
@[simp] theorem setV_I (x : Reg) (b : Byte) : (s.setV x b).I = s.I := rfl
@[simp] theorem setV_pc (x : Reg) (b : Byte) : (s.setV x b).pc = s.pc := rfl
@[simp] theorem setV_opcode (x : Reg) (b : Byte) : (s.setV x b).opcode = s.opcode := rfl
@[simp] theorem setV_stack (x : Reg) (b : Byte) : (s.setV x b).stack = s.stack := rfl
@[simp] theorem setV_sp (x : Reg) (b : Byte) : (s.setV x b).sp = s.sp := rfl
@[simp] theorem setV_dt (x : Reg) (b : Byte) : (s.setV x b).dt = s.dt := rfl
@[simp] theorem setV_st (x : Reg) (b : Byte) : (s.setV x b).st = s.st := rfl
@[simp] theorem setV_fb (x : Reg) (b : Byte) : (s.setV x b).fb = s.fb := rfl
@[simp] theorem setV_dirty (x : Reg) (b : Byte) : (s.setV x b).dirty = s.dirty := rfl
@[simp] theorem setV_fault (x : Reg) (b : Byte) : (s.setV x b).fault = s.fault := rfl
@[simp] theorem setV_faultInfo (x : Reg) (b : Byte) : (s.setV x b).faultInfo = s.faultInfo := rfl
@[simp] theorem setV_cycles (x : Reg) (b : Byte) : (s.setV x b).cycles = s.cycles := rfl
@[simp] theorem setV_mem (x : Reg) (b : Byte) : (s.setV x b).mem = s.mem := rfl
@[simp] theorem setV_beep (x : Reg) (b : Byte) : (s.setV x b).beep = s.beep := rfl
@[simp] theorem setV_keyWait (x : Reg) (b : Byte) : (s.setV x b).keyWait = s.keyWait := rfl
@[simp] theorem setV_warn (x : Reg) (b : Byte) : (s.setV x b).warn = s.warn := rfl
@[simp] theorem setV_host (x : Reg) (b : Byte) : (s.setV x b).host = s.host := rfl

/-! ### `State.setI` -/

@[simp] theorem setI_V (w : Word) : (s.setI w).V = s.V := rfl
@[simp] theorem setI_I (w : Word) : (s.setI w).I = w := rfl
@[simp] theorem setI_pc (w : Word) : (s.setI w).pc = s.pc := rfl
@[simp] theorem setI_opcode (w : Word) : (s.setI w).opcode = s.opcode := rfl
@[simp] theorem setI_stack (w : Word) : (s.setI w).stack = s.stack := rfl
@[simp] theorem setI_sp (w : Word) : (s.setI w).sp = s.sp := rfl
@[simp] theorem setI_dt (w : Word) : (s.setI w).dt = s.dt := rfl
@[simp] theorem setI_st (w : Word) : (s.setI w).st = s.st := rfl
@[simp] theorem setI_fb (w : Word) : (s.setI w).fb = s.fb := rfl
@[simp] theorem setI_dirty (w : Word) : (s.setI w).dirty = s.dirty := rfl
@[simp] theorem setI_fault (w : Word) : (s.setI w).fault = s.fault := rfl
@[simp] theorem setI_faultInfo (w : Word) : (s.setI w).faultInfo = s.faultInfo := rfl
@[simp] theorem setI_cycles (w : Word) : (s.setI w).cycles = s.cycles := rfl
@[simp] theorem setI_mem (w : Word) : (s.setI w).mem = s.mem := rfl
@[simp] theorem setI_beep (w : Word) : (s.setI w).beep = s.beep := rfl
@[simp] theorem setI_keyWait (w : Word) : (s.setI w).keyWait = s.keyWait := rfl
@[simp] theorem setI_warn (w : Word) : (s.setI w).warn = s.warn := rfl
@[simp] theorem setI_host (w : Word) : (s.setI w).host = s.host := rfl

/-! ### `State.setDt` -/

@[simp] theorem setDt_V (b : Byte) : (s.setDt b).V = s.V := rfl
@[simp] theorem setDt_I (b : Byte) : (s.setDt b).I = s.I := rfl
@[simp] theorem setDt_pc (b : Byte) : (s.setDt b).pc = s.pc := rfl
@[simp] theorem setDt_opcode (b : Byte) : (s.setDt b).opcode = s.opcode := rfl
@[simp] theorem setDt_stack (b : Byte) : (s.setDt b).stack = s.stack := rfl
@[simp] theorem setDt_sp (b : Byte) : (s.setDt b).sp = s.sp := rfl
@[simp] theorem setDt_dt (b : Byte) : (s.setDt b).dt = b := rfl
@[simp] theorem setDt_st (b : Byte) : (s.setDt b).st = s.st := rfl
@[simp] theorem setDt_fb (b : Byte) : (s.setDt b).fb = s.fb := rfl
@[simp] theorem setDt_dirty (b : Byte) : (s.setDt b).dirty = s.dirty := rfl
@[simp] theorem setDt_fault (b : Byte) : (s.setDt b).fault = s.fault := rfl
@[simp] theorem setDt_faultInfo (b : Byte) : (s.setDt b).faultInfo = s.faultInfo := rfl
@[simp] theorem setDt_cycles (b : Byte) : (s.setDt b).cycles = s.cycles := rfl
@[simp] theorem setDt_mem (b : Byte) : (s.setDt b).mem = s.mem := rfl
@[simp] theorem setDt_beep (b : Byte) : (s.setDt b).beep = s.beep := rfl
@[simp] theorem setDt_keyWait (b : Byte) : (s.setDt b).keyWait = s.keyWait := rfl
@[simp] theorem setDt_warn (b : Byte) : (s.setDt b).warn = s.warn := rfl
@[simp] theorem setDt_host (b : Byte) : (s.setDt b).host = s.host := rfl

/-! ### `State.setSt` -/

@[simp] theorem setSt_V (b : Byte) : (s.setSt b).V = s.V := rfl
@[simp] theorem setSt_I (b : Byte) : (s.setSt b).I = s.I := rfl
@[simp] theorem setSt_pc (b : Byte) : (s.setSt b).pc = s.pc := rfl
@[simp] theorem setSt_opcode (b : Byte) : (s.setSt b).opcode = s.opcode := rfl
@[simp] theorem setSt_stack (b : Byte) : (s.setSt b).stack = s.stack := rfl
@[simp] theorem setSt_sp (b : Byte) : (s.setSt b).sp = s.sp := rfl
@[simp] theorem setSt_dt (b : Byte) : (s.setSt b).dt = s.dt := rfl
@[simp] theorem setSt_st (b : Byte) : (s.setSt b).st = b := rfl
@[simp] theorem setSt_fb (b : Byte) : (s.setSt b).fb = s.fb := rfl
@[simp] theorem setSt_dirty (b : Byte) : (s.setSt b).dirty = s.dirty := rfl
@[simp] theorem setSt_fault (b : Byte) : (s.setSt b).fault = s.fault := rfl
@[simp] theorem setSt_faultInfo (b : Byte) : (s.setSt b).faultInfo = s.faultInfo := rfl
@[simp] theorem setSt_cycles (b : Byte) : (s.setSt b).cycles = s.cycles := rfl
@[simp] theorem setSt_mem (b : Byte) : (s.setSt b).mem = s.mem := rfl
@[simp] theorem setSt_beep (b : Byte) : (s.setSt b).beep = s.beep := rfl
@[simp] theorem setSt_keyWait (b : Byte) : (s.setSt b).keyWait = s.keyWait := rfl
@[simp] theorem setSt_warn (b : Byte) : (s.setSt b).warn = s.warn := rfl
@[simp] theorem setSt_host (b : Byte) : (s.setSt b).host = s.host := rfl

/-! ### `State.jump` -/

@[simp] theorem jump_V (w : Word) : (s.jump w).V = s.V := rfl
@[simp] theorem jump_I (w : Word) : (s.jump w).I = s.I := rfl
@[simp] theorem jump_pc (w : Word) : (s.jump w).pc = w := rfl
@[simp] theorem jump_opcode (w : Word) : (s.jump w).opcode = s.opcode := rfl
@[simp] theorem jump_stack (w : Word) : (s.jump w).stack = s.stack := rfl
@[simp] theorem jump_sp (w : Word) : (s.jump w).sp = s.sp := rfl
@[simp] theorem jump_dt (w : Word) : (s.jump w).dt = s.dt := rfl
@[simp] theorem jump_st (w : Word) : (s.jump w).st = s.st := rfl
@[simp] theorem jump_fb (w : Word) : (s.jump w).fb = s.fb := rfl
@[simp] theorem jump_dirty (w : Word) : (s.jump w).dirty = s.dirty := rfl
@[simp] theorem jump_fault (w : Word) : (s.jump w).fault = s.fault := rfl
@[simp] theorem jump_faultInfo (w : Word) : (s.jump w).faultInfo = s.faultInfo := rfl
@[simp] theorem jump_cycles (w : Word) : (s.jump w).cycles = s.cycles := rfl
@[simp] theorem jump_mem (w : Word) : (s.jump w).mem = s.mem := rfl
@[simp] theorem jump_beep (w : Word) : (s.jump w).beep = s.beep := rfl
@[simp] theorem jump_keyWait (w : Word) : (s.jump w).keyWait = s.keyWait := rfl
@[simp] theorem jump_warn (w : Word) : (s.jump w).warn = s.warn := rfl
@[simp] theorem jump_host (w : Word) : (s.jump w).host = s.host := rfl

/-! ### `State.advance` -/

@[simp] theorem advance_V : s.advance.V = s.V := rfl
@[simp] theorem advance_I : s.advance.I = s.I := rfl
@[simp] theorem advance_pc : s.advance.pc = s.pc + 2 := rfl
@[simp] theorem advance_opcode : s.advance.opcode = s.opcode := rfl
@[simp] theorem advance_stack : s.advance.stack = s.stack := rfl
@[simp] theorem advance_sp : s.advance.sp = s.sp := rfl
@[simp] theorem advance_dt : s.advance.dt = s.dt := rfl
@[simp] theorem advance_st : s.advance.st = s.st := rfl
@[simp] theorem advance_fb : s.advance.fb = s.fb := rfl
@[simp] theorem advance_dirty : s.advance.dirty = s.dirty := rfl
@[simp] theorem advance_fault : s.advance.fault = s.fault := rfl
@[simp] theorem advance_faultInfo : s.advance.faultInfo = s.faultInfo := rfl
@[simp] theorem advance_cycles : s.advance.cycles = s.cycles := rfl
@[simp] theorem advance_mem : s.advance.mem = s.mem := rfl
@[simp] theorem advance_beep : s.advance.beep = s.beep := rfl
@[simp] theorem advance_keyWait : s.advance.keyWait = s.keyWait := rfl
@[simp] theorem advance_warn : s.advance.warn = s.warn := rfl
@[simp] theorem advance_host : s.advance.host = s.host := rfl

/-! ### `State.raise` -/

@[simp] theorem raise_V (f : FaultCode) (n : BitVec 17) : (s.raise f n).V = s.V := rfl
@[simp] theorem raise_I (f : FaultCode) (n : BitVec 17) : (s.raise f n).I = s.I := rfl
@[simp] theorem raise_pc (f : FaultCode) (n : BitVec 17) : (s.raise f n).pc = s.pc := rfl
@[simp] theorem raise_opcode (f : FaultCode) (n : BitVec 17) : (s.raise f n).opcode = s.opcode := rfl
@[simp] theorem raise_stack (f : FaultCode) (n : BitVec 17) : (s.raise f n).stack = s.stack := rfl
@[simp] theorem raise_sp (f : FaultCode) (n : BitVec 17) : (s.raise f n).sp = s.sp := rfl
@[simp] theorem raise_dt (f : FaultCode) (n : BitVec 17) : (s.raise f n).dt = s.dt := rfl
@[simp] theorem raise_st (f : FaultCode) (n : BitVec 17) : (s.raise f n).st = s.st := rfl
@[simp] theorem raise_fb (f : FaultCode) (n : BitVec 17) : (s.raise f n).fb = s.fb := rfl
@[simp] theorem raise_dirty (f : FaultCode) (n : BitVec 17) : (s.raise f n).dirty = s.dirty := rfl
@[simp] theorem raise_fault (f : FaultCode) (n : BitVec 17) : (s.raise f n).fault = f := rfl
@[simp] theorem raise_faultInfo (f : FaultCode) (n : BitVec 17) : (s.raise f n).faultInfo = n := rfl
@[simp] theorem raise_cycles (f : FaultCode) (n : BitVec 17) : (s.raise f n).cycles = s.cycles := rfl
@[simp] theorem raise_mem (f : FaultCode) (n : BitVec 17) : (s.raise f n).mem = s.mem := rfl
@[simp] theorem raise_beep (f : FaultCode) (n : BitVec 17) : (s.raise f n).beep = s.beep := rfl
@[simp] theorem raise_keyWait (f : FaultCode) (n : BitVec 17) : (s.raise f n).keyWait = s.keyWait := rfl
@[simp] theorem raise_warn (f : FaultCode) (n : BitVec 17) : (s.raise f n).warn = s.warn := rfl
@[simp] theorem raise_host (f : FaultCode) (n : BitVec 17) : (s.raise f n).host = s.host := rfl

/-! ### `State.raiseAtPc` -/

@[simp] theorem raiseAtPc_V (f : FaultCode) : (s.raiseAtPc f).V = s.V := rfl
@[simp] theorem raiseAtPc_I (f : FaultCode) : (s.raiseAtPc f).I = s.I := rfl
@[simp] theorem raiseAtPc_pc (f : FaultCode) : (s.raiseAtPc f).pc = s.pc := rfl
@[simp] theorem raiseAtPc_opcode (f : FaultCode) : (s.raiseAtPc f).opcode = s.opcode := rfl
@[simp] theorem raiseAtPc_stack (f : FaultCode) : (s.raiseAtPc f).stack = s.stack := rfl
@[simp] theorem raiseAtPc_sp (f : FaultCode) : (s.raiseAtPc f).sp = s.sp := rfl
@[simp] theorem raiseAtPc_dt (f : FaultCode) : (s.raiseAtPc f).dt = s.dt := rfl
@[simp] theorem raiseAtPc_st (f : FaultCode) : (s.raiseAtPc f).st = s.st := rfl
@[simp] theorem raiseAtPc_fb (f : FaultCode) : (s.raiseAtPc f).fb = s.fb := rfl
@[simp] theorem raiseAtPc_dirty (f : FaultCode) : (s.raiseAtPc f).dirty = s.dirty := rfl
@[simp] theorem raiseAtPc_fault (f : FaultCode) : (s.raiseAtPc f).fault = f := rfl
@[simp] theorem raiseAtPc_faultInfo (f : FaultCode) : (s.raiseAtPc f).faultInfo = s.pc.setWidth 17 := rfl
@[simp] theorem raiseAtPc_cycles (f : FaultCode) : (s.raiseAtPc f).cycles = s.cycles := rfl
@[simp] theorem raiseAtPc_mem (f : FaultCode) : (s.raiseAtPc f).mem = s.mem := rfl
@[simp] theorem raiseAtPc_beep (f : FaultCode) : (s.raiseAtPc f).beep = s.beep := rfl
@[simp] theorem raiseAtPc_keyWait (f : FaultCode) : (s.raiseAtPc f).keyWait = s.keyWait := rfl
@[simp] theorem raiseAtPc_warn (f : FaultCode) : (s.raiseAtPc f).warn = s.warn := rfl
@[simp] theorem raiseAtPc_host (f : FaultCode) : (s.raiseAtPc f).host = s.host := rfl

/-! ### `State.setFlag` -/

@[simp] theorem setFlag_V (c : Bool) : (s.setFlag c).V = s.V.set 15 (flagByte c) := rfl
@[simp] theorem setFlag_I (c : Bool) : (s.setFlag c).I = s.I := rfl
@[simp] theorem setFlag_pc (c : Bool) : (s.setFlag c).pc = s.pc := rfl
@[simp] theorem setFlag_opcode (c : Bool) : (s.setFlag c).opcode = s.opcode := rfl
@[simp] theorem setFlag_stack (c : Bool) : (s.setFlag c).stack = s.stack := rfl
@[simp] theorem setFlag_sp (c : Bool) : (s.setFlag c).sp = s.sp := rfl
@[simp] theorem setFlag_dt (c : Bool) : (s.setFlag c).dt = s.dt := rfl
@[simp] theorem setFlag_st (c : Bool) : (s.setFlag c).st = s.st := rfl
@[simp] theorem setFlag_fb (c : Bool) : (s.setFlag c).fb = s.fb := rfl
@[simp] theorem setFlag_dirty (c : Bool) : (s.setFlag c).dirty = s.dirty := rfl
@[simp] theorem setFlag_fault (c : Bool) : (s.setFlag c).fault = s.fault := rfl
@[simp] theorem setFlag_faultInfo (c : Bool) : (s.setFlag c).faultInfo = s.faultInfo := rfl
@[simp] theorem setFlag_cycles (c : Bool) : (s.setFlag c).cycles = s.cycles := rfl
@[simp] theorem setFlag_mem (c : Bool) : (s.setFlag c).mem = s.mem := rfl
@[simp] theorem setFlag_beep (c : Bool) : (s.setFlag c).beep = s.beep := rfl
@[simp] theorem setFlag_keyWait (c : Bool) : (s.setFlag c).keyWait = s.keyWait := rfl
@[simp] theorem setFlag_warn (c : Bool) : (s.setFlag c).warn = s.warn := rfl
@[simp] theorem setFlag_host (c : Bool) : (s.setFlag c).host = s.host := rfl

/-! ### `State.storeAtI` -/

@[simp] theorem storeAtI_V (bs : List Byte) : (s.storeAtI bs).V = s.V := rfl
@[simp] theorem storeAtI_I (bs : List Byte) : (s.storeAtI bs).I = s.I := rfl
@[simp] theorem storeAtI_pc (bs : List Byte) : (s.storeAtI bs).pc = s.pc := rfl
@[simp] theorem storeAtI_opcode (bs : List Byte) : (s.storeAtI bs).opcode = s.opcode := rfl
@[simp] theorem storeAtI_stack (bs : List Byte) : (s.storeAtI bs).stack = s.stack := rfl
@[simp] theorem storeAtI_sp (bs : List Byte) : (s.storeAtI bs).sp = s.sp := rfl
@[simp] theorem storeAtI_dt (bs : List Byte) : (s.storeAtI bs).dt = s.dt := rfl
@[simp] theorem storeAtI_st (bs : List Byte) : (s.storeAtI bs).st = s.st := rfl
@[simp] theorem storeAtI_fb (bs : List Byte) : (s.storeAtI bs).fb = s.fb := rfl
@[simp] theorem storeAtI_dirty (bs : List Byte) : (s.storeAtI bs).dirty = s.dirty := rfl
@[simp] theorem storeAtI_fault (bs : List Byte) : (s.storeAtI bs).fault = s.fault := rfl
@[simp] theorem storeAtI_faultInfo (bs : List Byte) : (s.storeAtI bs).faultInfo = s.faultInfo := rfl
@[simp] theorem storeAtI_cycles (bs : List Byte) : (s.storeAtI bs).cycles = s.cycles := rfl
@[simp] theorem storeAtI_mem (bs : List Byte) : (s.storeAtI bs).mem = s.mem.writeBytes s.I.toNat bs := rfl
@[simp] theorem storeAtI_beep (bs : List Byte) : (s.storeAtI bs).beep = s.beep := rfl
@[simp] theorem storeAtI_keyWait (bs : List Byte) : (s.storeAtI bs).keyWait = s.keyWait := rfl
@[simp] theorem storeAtI_warn (bs : List Byte) : (s.storeAtI bs).warn = s.warn := rfl
@[simp] theorem storeAtI_host (bs : List Byte) : (s.storeAtI bs).host = s.host := rfl

/-! ### `State.loadAllV` -/

@[simp] theorem loadAllV_I : s.loadAllV.I = s.I := rfl
@[simp] theorem loadAllV_pc : s.loadAllV.pc = s.pc := rfl
@[simp] theorem loadAllV_opcode : s.loadAllV.opcode = s.opcode := rfl
@[simp] theorem loadAllV_stack : s.loadAllV.stack = s.stack := rfl
@[simp] theorem loadAllV_sp : s.loadAllV.sp = s.sp := rfl
@[simp] theorem loadAllV_dt : s.loadAllV.dt = s.dt := rfl
@[simp] theorem loadAllV_st : s.loadAllV.st = s.st := rfl
@[simp] theorem loadAllV_fb : s.loadAllV.fb = s.fb := rfl
@[simp] theorem loadAllV_dirty : s.loadAllV.dirty = s.dirty := rfl
@[simp] theorem loadAllV_fault : s.loadAllV.fault = s.fault := rfl
@[simp] theorem loadAllV_faultInfo : s.loadAllV.faultInfo = s.faultInfo := rfl
@[simp] theorem loadAllV_cycles : s.loadAllV.cycles = s.cycles := rfl
@[simp] theorem loadAllV_mem : s.loadAllV.mem = s.mem := rfl
@[simp] theorem loadAllV_beep : s.loadAllV.beep = s.beep := rfl
@[simp] theorem loadAllV_keyWait : s.loadAllV.keyWait = s.keyWait := rfl
@[simp] theorem loadAllV_warn : s.loadAllV.warn = s.warn := rfl
@[simp] theorem loadAllV_host : s.loadAllV.host = s.host := rfl

/-! ### `State.setFb` -/

@[simp] theorem setFb_V (g : Framebuffer) : (s.setFb g).V = s.V := rfl
@[simp] theorem setFb_I (g : Framebuffer) : (s.setFb g).I = s.I := rfl
@[simp] theorem setFb_pc (g : Framebuffer) : (s.setFb g).pc = s.pc := rfl
@[simp] theorem setFb_opcode (g : Framebuffer) : (s.setFb g).opcode = s.opcode := rfl
@[simp] theorem setFb_stack (g : Framebuffer) : (s.setFb g).stack = s.stack := rfl
@[simp] theorem setFb_sp (g : Framebuffer) : (s.setFb g).sp = s.sp := rfl
@[simp] theorem setFb_dt (g : Framebuffer) : (s.setFb g).dt = s.dt := rfl
@[simp] theorem setFb_st (g : Framebuffer) : (s.setFb g).st = s.st := rfl
@[simp] theorem setFb_fb (g : Framebuffer) : (s.setFb g).fb = g := rfl
@[simp] theorem setFb_dirty (g : Framebuffer) : (s.setFb g).dirty = true := rfl
@[simp] theorem setFb_fault (g : Framebuffer) : (s.setFb g).fault = s.fault := rfl
@[simp] theorem setFb_faultInfo (g : Framebuffer) : (s.setFb g).faultInfo = s.faultInfo := rfl
@[simp] theorem setFb_cycles (g : Framebuffer) : (s.setFb g).cycles = s.cycles := rfl
@[simp] theorem setFb_mem (g : Framebuffer) : (s.setFb g).mem = s.mem := rfl
@[simp] theorem setFb_beep (g : Framebuffer) : (s.setFb g).beep = s.beep := rfl
@[simp] theorem setFb_keyWait (g : Framebuffer) : (s.setFb g).keyWait = s.keyWait := rfl
@[simp] theorem setFb_warn (g : Framebuffer) : (s.setFb g).warn = s.warn := rfl
@[simp] theorem setFb_host (g : Framebuffer) : (s.setFb g).host = s.host := rfl

/-! ### `State.draw` -/

@[simp] theorem draw_V (x y : Nat) (bs : List Byte) :
    (s.draw x y bs).V = s.V.set 15 (flagByte (drawRows x y bs (s.fb, false)).2) := rfl
@[simp] theorem draw_I (x y : Nat) (bs : List Byte) : (s.draw x y bs).I = s.I := rfl
@[simp] theorem draw_pc (x y : Nat) (bs : List Byte) : (s.draw x y bs).pc = s.pc := rfl
@[simp] theorem draw_opcode (x y : Nat) (bs : List Byte) : (s.draw x y bs).opcode = s.opcode := rfl
@[simp] theorem draw_stack (x y : Nat) (bs : List Byte) : (s.draw x y bs).stack = s.stack := rfl
@[simp] theorem draw_sp (x y : Nat) (bs : List Byte) : (s.draw x y bs).sp = s.sp := rfl
@[simp] theorem draw_dt (x y : Nat) (bs : List Byte) : (s.draw x y bs).dt = s.dt := rfl
@[simp] theorem draw_st (x y : Nat) (bs : List Byte) : (s.draw x y bs).st = s.st := rfl
@[simp] theorem draw_fb (x y : Nat) (bs : List Byte) :
    (s.draw x y bs).fb = (drawRows x y bs (s.fb, false)).1 := rfl
@[simp] theorem draw_dirty (x y : Nat) (bs : List Byte) : (s.draw x y bs).dirty = true := rfl
@[simp] theorem draw_fault (x y : Nat) (bs : List Byte) : (s.draw x y bs).fault = s.fault := rfl
@[simp] theorem draw_faultInfo (x y : Nat) (bs : List Byte) : (s.draw x y bs).faultInfo = s.faultInfo := rfl
@[simp] theorem draw_cycles (x y : Nat) (bs : List Byte) : (s.draw x y bs).cycles = s.cycles := rfl
@[simp] theorem draw_mem (x y : Nat) (bs : List Byte) : (s.draw x y bs).mem = s.mem := rfl
@[simp] theorem draw_beep (x y : Nat) (bs : List Byte) : (s.draw x y bs).beep = s.beep := rfl
@[simp] theorem draw_keyWait (x y : Nat) (bs : List Byte) : (s.draw x y bs).keyWait = s.keyWait := rfl
@[simp] theorem draw_warn (x y : Nat) (bs : List Byte) : (s.draw x y bs).warn = s.warn := rfl
@[simp] theorem draw_host (x y : Nat) (bs : List Byte) : (s.draw x y bs).host = s.host := rfl

/-! ### `State.clearOutputs` -/

@[simp] theorem clearOutputs_V : s.clearOutputs.V = s.V := rfl
@[simp] theorem clearOutputs_I : s.clearOutputs.I = s.I := rfl
@[simp] theorem clearOutputs_pc : s.clearOutputs.pc = s.pc := rfl
@[simp] theorem clearOutputs_opcode : s.clearOutputs.opcode = s.opcode := rfl
@[simp] theorem clearOutputs_stack : s.clearOutputs.stack = s.stack := rfl
@[simp] theorem clearOutputs_sp : s.clearOutputs.sp = s.sp := rfl
@[simp] theorem clearOutputs_dt : s.clearOutputs.dt = s.dt := rfl
@[simp] theorem clearOutputs_st : s.clearOutputs.st = s.st := rfl
@[simp] theorem clearOutputs_fb : s.clearOutputs.fb = s.fb := rfl
@[simp] theorem clearOutputs_dirty : s.clearOutputs.dirty = s.dirty := rfl
@[simp] theorem clearOutputs_fault : s.clearOutputs.fault = s.fault := rfl
@[simp] theorem clearOutputs_faultInfo : s.clearOutputs.faultInfo = s.faultInfo := rfl
@[simp] theorem clearOutputs_cycles : s.clearOutputs.cycles = s.cycles := rfl
@[simp] theorem clearOutputs_mem : s.clearOutputs.mem = s.mem := rfl
@[simp] theorem clearOutputs_beep : s.clearOutputs.beep = false := rfl
@[simp] theorem clearOutputs_keyWait : s.clearOutputs.keyWait = false := rfl
@[simp] theorem clearOutputs_warn : s.clearOutputs.warn = false := rfl
@[simp] theorem clearOutputs_host : s.clearOutputs.host = s.host := rfl

/-! ### `State.hold` -/

@[simp] theorem hold_V : s.hold.V = s.V := rfl
@[simp] theorem hold_I : s.hold.I = s.I := rfl
@[simp] theorem hold_pc : s.hold.pc = s.pc := rfl
@[simp] theorem hold_opcode : s.hold.opcode = s.opcode := rfl
@[simp] theorem hold_stack : s.hold.stack = s.stack := rfl
@[simp] theorem hold_sp : s.hold.sp = s.sp := rfl
@[simp] theorem hold_dt : s.hold.dt = s.dt := rfl
@[simp] theorem hold_st : s.hold.st = s.st := rfl
@[simp] theorem hold_fb : s.hold.fb = s.fb := rfl
@[simp] theorem hold_dirty : s.hold.dirty = s.dirty := rfl
@[simp] theorem hold_fault : s.hold.fault = s.fault := rfl
@[simp] theorem hold_faultInfo : s.hold.faultInfo = s.faultInfo := rfl
@[simp] theorem hold_cycles : s.hold.cycles = s.cycles := rfl
@[simp] theorem hold_mem : s.hold.mem = s.mem := rfl
@[simp] theorem hold_beep : s.hold.beep = s.beep := rfl
@[simp] theorem hold_keyWait : s.hold.keyWait = true := rfl
@[simp] theorem hold_warn : s.hold.warn = s.warn := rfl
@[simp] theorem hold_host : s.hold.host = s.host := rfl

/-! ### `State.timerTick` -/

@[simp] theorem timerTick_V : s.timerTick.V = s.V := rfl
@[simp] theorem timerTick_I : s.timerTick.I = s.I := rfl
@[simp] theorem timerTick_pc : s.timerTick.pc = s.pc := rfl
@[simp] theorem timerTick_opcode : s.timerTick.opcode = s.opcode := rfl
@[simp] theorem timerTick_stack : s.timerTick.stack = s.stack := rfl
@[simp] theorem timerTick_sp : s.timerTick.sp = s.sp := rfl
@[simp] theorem timerTick_dt : s.timerTick.dt = tickDown s.dt := rfl
@[simp] theorem timerTick_st : s.timerTick.st = tickDown s.st := rfl
@[simp] theorem timerTick_fb : s.timerTick.fb = s.fb := rfl
@[simp] theorem timerTick_dirty : s.timerTick.dirty = s.dirty := rfl
@[simp] theorem timerTick_fault : s.timerTick.fault = s.fault := rfl
@[simp] theorem timerTick_faultInfo : s.timerTick.faultInfo = s.faultInfo := rfl
@[simp] theorem timerTick_cycles : s.timerTick.cycles = s.cycles := rfl
@[simp] theorem timerTick_mem : s.timerTick.mem = s.mem := rfl
@[simp] theorem timerTick_beep :
    s.timerTick.beep = if s.st ≠ 0 ∧ tickDown s.st = 0 then true else s.beep := rfl
@[simp] theorem timerTick_keyWait : s.timerTick.keyWait = s.keyWait := rfl
@[simp] theorem timerTick_warn : s.timerTick.warn = s.warn := rfl
@[simp] theorem timerTick_host : s.timerTick.host = s.host := rfl

/-! ### `State.countCycle` -/

@[simp] theorem countCycle_V : s.countCycle.V = s.V := rfl
@[simp] theorem countCycle_I : s.countCycle.I = s.I := rfl
@[simp] theorem countCycle_pc : s.countCycle.pc = s.pc := rfl
@[simp] theorem countCycle_opcode : s.countCycle.opcode = s.opcode := rfl
@[simp] theorem countCycle_stack : s.countCycle.stack = s.stack := rfl
@[simp] theorem countCycle_sp : s.countCycle.sp = s.sp := rfl
@[simp] theorem countCycle_dt : s.countCycle.dt = s.dt := rfl
@[simp] theorem countCycle_st : s.countCycle.st = s.st := rfl
@[simp] theorem countCycle_fb : s.countCycle.fb = s.fb := rfl
@[simp] theorem countCycle_dirty : s.countCycle.dirty = s.dirty := rfl
@[simp] theorem countCycle_fault : s.countCycle.fault = s.fault := rfl
@[simp] theorem countCycle_faultInfo : s.countCycle.faultInfo = s.faultInfo := rfl
@[simp] theorem countCycle_cycles : s.countCycle.cycles = s.cycles + 1 := rfl
@[simp] theorem countCycle_mem : s.countCycle.mem = s.mem := rfl
@[simp] theorem countCycle_beep : s.countCycle.beep = s.beep := rfl
@[simp] theorem countCycle_keyWait : s.countCycle.keyWait = s.keyWait := rfl
@[simp] theorem countCycle_warn : s.countCycle.warn = s.warn := rfl
@[simp] theorem countCycle_host : s.countCycle.host = s.host := rfl

/-! ### `State.loadOpcode` -/

@[simp] theorem loadOpcode_V (w : Word) : (s.loadOpcode w).V = s.V := rfl
@[simp] theorem loadOpcode_I (w : Word) : (s.loadOpcode w).I = s.I := rfl
@[simp] theorem loadOpcode_pc (w : Word) : (s.loadOpcode w).pc = s.pc := rfl
@[simp] theorem loadOpcode_opcode (w : Word) : (s.loadOpcode w).opcode = w := rfl
@[simp] theorem loadOpcode_stack (w : Word) : (s.loadOpcode w).stack = s.stack := rfl
@[simp] theorem loadOpcode_sp (w : Word) : (s.loadOpcode w).sp = s.sp := rfl
@[simp] theorem loadOpcode_dt (w : Word) : (s.loadOpcode w).dt = s.dt := rfl
@[simp] theorem loadOpcode_st (w : Word) : (s.loadOpcode w).st = s.st := rfl
@[simp] theorem loadOpcode_fb (w : Word) : (s.loadOpcode w).fb = s.fb := rfl
@[simp] theorem loadOpcode_dirty (w : Word) : (s.loadOpcode w).dirty = s.dirty := rfl
@[simp] theorem loadOpcode_fault (w : Word) : (s.loadOpcode w).fault = s.fault := rfl
@[simp] theorem loadOpcode_faultInfo (w : Word) : (s.loadOpcode w).faultInfo = s.faultInfo := rfl
@[simp] theorem loadOpcode_cycles (w : Word) : (s.loadOpcode w).cycles = s.cycles := rfl
@[simp] theorem loadOpcode_mem (w : Word) : (s.loadOpcode w).mem = s.mem := rfl
@[simp] theorem loadOpcode_beep (w : Word) : (s.loadOpcode w).beep = s.beep := rfl
@[simp] theorem loadOpcode_keyWait (w : Word) : (s.loadOpcode w).keyWait = s.keyWait := rfl
@[simp] theorem loadOpcode_warn (w : Word) : (s.loadOpcode w).warn = s.warn := rfl
@[simp] theorem loadOpcode_host (w : Word) : (s.loadOpcode w).host = s.host := rfl

/-! ### `State.execUnknown` -/

@[simp] theorem execUnknown_V : s.execUnknown.V = s.V := rfl
@[simp] theorem execUnknown_I : s.execUnknown.I = s.I := rfl
@[simp] theorem execUnknown_pc : s.execUnknown.pc = s.pc + 2 := rfl
@[simp] theorem execUnknown_opcode : s.execUnknown.opcode = s.opcode := rfl
@[simp] theorem execUnknown_stack : s.execUnknown.stack = s.stack := rfl
@[simp] theorem execUnknown_sp : s.execUnknown.sp = s.sp := rfl
@[simp] theorem execUnknown_dt : s.execUnknown.dt = s.dt := rfl
@[simp] theorem execUnknown_st : s.execUnknown.st = s.st := rfl
@[simp] theorem execUnknown_fb : s.execUnknown.fb = s.fb := rfl
@[simp] theorem execUnknown_dirty : s.execUnknown.dirty = s.dirty := rfl
@[simp] theorem execUnknown_fault : s.execUnknown.fault = s.fault := rfl
@[simp] theorem execUnknown_faultInfo : s.execUnknown.faultInfo = s.faultInfo := rfl
@[simp] theorem execUnknown_cycles : s.execUnknown.cycles = s.cycles := rfl
@[simp] theorem execUnknown_mem : s.execUnknown.mem = s.mem := rfl
@[simp] theorem execUnknown_beep : s.execUnknown.beep = s.beep := rfl
@[simp] theorem execUnknown_keyWait : s.execUnknown.keyWait = s.keyWait := rfl
@[simp] theorem execUnknown_warn : s.execUnknown.warn = true := rfl
@[simp] theorem execUnknown_host : s.execUnknown.host = s.host := rfl

/-! ### `State.setKeys` -/

@[simp] theorem setKeys_V (ks : BitVec 16) : (s.setKeys ks).V = s.V := rfl
@[simp] theorem setKeys_I (ks : BitVec 16) : (s.setKeys ks).I = s.I := rfl
@[simp] theorem setKeys_pc (ks : BitVec 16) : (s.setKeys ks).pc = s.pc := rfl
@[simp] theorem setKeys_opcode (ks : BitVec 16) : (s.setKeys ks).opcode = s.opcode := rfl
@[simp] theorem setKeys_stack (ks : BitVec 16) : (s.setKeys ks).stack = s.stack := rfl
@[simp] theorem setKeys_sp (ks : BitVec 16) : (s.setKeys ks).sp = s.sp := rfl
@[simp] theorem setKeys_dt (ks : BitVec 16) : (s.setKeys ks).dt = s.dt := rfl
@[simp] theorem setKeys_st (ks : BitVec 16) : (s.setKeys ks).st = s.st := rfl
@[simp] theorem setKeys_fb (ks : BitVec 16) : (s.setKeys ks).fb = s.fb := rfl
@[simp] theorem setKeys_dirty (ks : BitVec 16) : (s.setKeys ks).dirty = s.dirty := rfl
@[simp] theorem setKeys_fault (ks : BitVec 16) : (s.setKeys ks).fault = s.fault := rfl
@[simp] theorem setKeys_faultInfo (ks : BitVec 16) : (s.setKeys ks).faultInfo = s.faultInfo := rfl
@[simp] theorem setKeys_cycles (ks : BitVec 16) : (s.setKeys ks).cycles = s.cycles := rfl
@[simp] theorem setKeys_mem (ks : BitVec 16) : (s.setKeys ks).mem = s.mem := rfl
@[simp] theorem setKeys_beep (ks : BitVec 16) : (s.setKeys ks).beep = s.beep := rfl
@[simp] theorem setKeys_keyWait (ks : BitVec 16) : (s.setKeys ks).keyWait = s.keyWait := rfl
@[simp] theorem setKeys_warn (ks : BitVec 16) : (s.setKeys ks).warn = s.warn := rfl
@[simp] theorem setKeys_host (ks : BitVec 16) : (s.setKeys ks).host = { s.host with keys := ks } := rfl

/-! ### `State.supplyRand` -/

@[simp] theorem supplyRand_V (b : Byte) : (s.supplyRand b).V = s.V := rfl
@[simp] theorem supplyRand_I (b : Byte) : (s.supplyRand b).I = s.I := rfl
@[simp] theorem supplyRand_pc (b : Byte) : (s.supplyRand b).pc = s.pc := rfl
@[simp] theorem supplyRand_opcode (b : Byte) : (s.supplyRand b).opcode = s.opcode := rfl
@[simp] theorem supplyRand_stack (b : Byte) : (s.supplyRand b).stack = s.stack := rfl
@[simp] theorem supplyRand_sp (b : Byte) : (s.supplyRand b).sp = s.sp := rfl
@[simp] theorem supplyRand_dt (b : Byte) : (s.supplyRand b).dt = s.dt := rfl
@[simp] theorem supplyRand_st (b : Byte) : (s.supplyRand b).st = s.st := rfl
@[simp] theorem supplyRand_fb (b : Byte) : (s.supplyRand b).fb = s.fb := rfl
@[simp] theorem supplyRand_dirty (b : Byte) : (s.supplyRand b).dirty = s.dirty := rfl
@[simp] theorem supplyRand_fault (b : Byte) : (s.supplyRand b).fault = s.fault := rfl
@[simp] theorem supplyRand_faultInfo (b : Byte) : (s.supplyRand b).faultInfo = s.faultInfo := rfl
@[simp] theorem supplyRand_cycles (b : Byte) : (s.supplyRand b).cycles = s.cycles := rfl
@[simp] theorem supplyRand_mem (b : Byte) : (s.supplyRand b).mem = s.mem := rfl
@[simp] theorem supplyRand_beep (b : Byte) : (s.supplyRand b).beep = s.beep := rfl
@[simp] theorem supplyRand_keyWait (b : Byte) : (s.supplyRand b).keyWait = s.keyWait := rfl
@[simp] theorem supplyRand_warn (b : Byte) : (s.supplyRand b).warn = s.warn := rfl
@[simp] theorem supplyRand_host (b : Byte) : (s.supplyRand b).host = { s.host with rand := b } := rfl

/-! ### `State.clearDraw` -/

@[simp] theorem clearDraw_V : s.clearDraw.V = s.V := rfl
@[simp] theorem clearDraw_I : s.clearDraw.I = s.I := rfl
@[simp] theorem clearDraw_pc : s.clearDraw.pc = s.pc := rfl
@[simp] theorem clearDraw_opcode : s.clearDraw.opcode = s.opcode := rfl
@[simp] theorem clearDraw_stack : s.clearDraw.stack = s.stack := rfl
@[simp] theorem clearDraw_sp : s.clearDraw.sp = s.sp := rfl
@[simp] theorem clearDraw_dt : s.clearDraw.dt = s.dt := rfl
@[simp] theorem clearDraw_st : s.clearDraw.st = s.st := rfl
@[simp] theorem clearDraw_fb : s.clearDraw.fb = s.fb := rfl
@[simp] theorem clearDraw_dirty : s.clearDraw.dirty = false := rfl
@[simp] theorem clearDraw_fault : s.clearDraw.fault = s.fault := rfl
@[simp] theorem clearDraw_faultInfo : s.clearDraw.faultInfo = s.faultInfo := rfl
@[simp] theorem clearDraw_cycles : s.clearDraw.cycles = s.cycles := rfl
@[simp] theorem clearDraw_mem : s.clearDraw.mem = s.mem := rfl
@[simp] theorem clearDraw_beep : s.clearDraw.beep = s.beep := rfl
@[simp] theorem clearDraw_keyWait : s.clearDraw.keyWait = s.keyWait := rfl
@[simp] theorem clearDraw_warn : s.clearDraw.warn = s.warn := rfl
@[simp] theorem clearDraw_host : s.clearDraw.host = s.host := rfl

/-! ### `State.nextInputs` -/

@[simp] theorem nextInputs_V : s.nextInputs.V = s.V := rfl
@[simp] theorem nextInputs_I : s.nextInputs.I = s.I := rfl
@[simp] theorem nextInputs_pc : s.nextInputs.pc = s.pc := rfl
@[simp] theorem nextInputs_opcode : s.nextInputs.opcode = s.opcode := rfl
@[simp] theorem nextInputs_stack : s.nextInputs.stack = s.stack := rfl
@[simp] theorem nextInputs_sp : s.nextInputs.sp = s.sp := rfl
@[simp] theorem nextInputs_dt : s.nextInputs.dt = s.dt := rfl
@[simp] theorem nextInputs_st : s.nextInputs.st = s.st := rfl
@[simp] theorem nextInputs_fb : s.nextInputs.fb = s.fb := rfl
@[simp] theorem nextInputs_dirty : s.nextInputs.dirty = s.dirty := rfl
@[simp] theorem nextInputs_fault : s.nextInputs.fault = s.fault := rfl
@[simp] theorem nextInputs_faultInfo : s.nextInputs.faultInfo = s.faultInfo := rfl
@[simp] theorem nextInputs_cycles : s.nextInputs.cycles = s.cycles := rfl
@[simp] theorem nextInputs_mem : s.nextInputs.mem = s.mem := rfl
@[simp] theorem nextInputs_beep : s.nextInputs.beep = s.beep := rfl
@[simp] theorem nextInputs_keyWait : s.nextInputs.keyWait = s.keyWait := rfl
@[simp] theorem nextInputs_warn : s.nextInputs.warn = s.warn := rfl
@[simp] theorem nextInputs_host :
    s.nextInputs.host =
      { keys := nextKeys (Config.hostSetKeys s.host.draws) s.host.keys, rand := Config.hostRand s.host.draws,
        draws := s.host.draws + 1, loadOpen := false } := rfl

@[simp] theorem nextKeys_none (keys : BitVec 16) : nextKeys none keys = keys := rfl

@[simp] theorem nextKeys_some (k keys : BitVec 16) : nextKeys (some k) keys = k := rfl

/-! ### `State.skipIf` -/

@[simp] theorem skipIf_V (c : Bool) : (s.skipIf c).V = s.V := by cases c <;> rfl
@[simp] theorem skipIf_I (c : Bool) : (s.skipIf c).I = s.I := by cases c <;> rfl
@[simp] theorem skipIf_pc (c : Bool) : (s.skipIf c).pc = s.pc + (if c then 4 else 2) := by
  cases c <;> rfl
@[simp] theorem skipIf_opcode (c : Bool) : (s.skipIf c).opcode = s.opcode := by cases c <;> rfl
@[simp] theorem skipIf_stack (c : Bool) : (s.skipIf c).stack = s.stack := by cases c <;> rfl
@[simp] theorem skipIf_sp (c : Bool) : (s.skipIf c).sp = s.sp := by cases c <;> rfl
@[simp] theorem skipIf_dt (c : Bool) : (s.skipIf c).dt = s.dt := by cases c <;> rfl
@[simp] theorem skipIf_st (c : Bool) : (s.skipIf c).st = s.st := by cases c <;> rfl
@[simp] theorem skipIf_fb (c : Bool) : (s.skipIf c).fb = s.fb := by cases c <;> rfl
@[simp] theorem skipIf_dirty (c : Bool) : (s.skipIf c).dirty = s.dirty := by cases c <;> rfl
@[simp] theorem skipIf_fault (c : Bool) : (s.skipIf c).fault = s.fault := by cases c <;> rfl
@[simp] theorem skipIf_faultInfo (c : Bool) : (s.skipIf c).faultInfo = s.faultInfo := by cases c <;> rfl
@[simp] theorem skipIf_cycles (c : Bool) : (s.skipIf c).cycles = s.cycles := by cases c <;> rfl
@[simp] theorem skipIf_mem (c : Bool) : (s.skipIf c).mem = s.mem := by cases c <;> rfl
@[simp] theorem skipIf_beep (c : Bool) : (s.skipIf c).beep = s.beep := by cases c <;> rfl
@[simp] theorem skipIf_keyWait (c : Bool) : (s.skipIf c).keyWait = s.keyWait := by cases c <;> rfl
@[simp] theorem skipIf_warn (c : Bool) : (s.skipIf c).warn = s.warn := by cases c <;> rfl
@[simp] theorem skipIf_host (c : Bool) : (s.skipIf c).host = s.host := by cases c <;> rfl

/-! ### `State.getV` after an update that does not write registers -/

@[simp] theorem getV_setI (k : Reg) (w : Word) : (s.setI w).getV k = s.getV k := rfl
@[simp] theorem getV_setDt (k : Reg) (b : Byte) : (s.setDt b).getV k = s.getV k := rfl
@[simp] theorem getV_setSt (k : Reg) (b : Byte) : (s.setSt b).getV k = s.getV k := rfl
@[simp] theorem getV_jump (k : Reg) (w : Word) : (s.jump w).getV k = s.getV k := rfl
@[simp] theorem getV_advance (k : Reg) : s.advance.getV k = s.getV k := rfl
@[simp] theorem getV_raise (k : Reg) (f : FaultCode) (n : BitVec 17) : (s.raise f n).getV k = s.getV k := rfl
@[simp] theorem getV_raiseAtPc (k : Reg) (f : FaultCode) : (s.raiseAtPc f).getV k = s.getV k := rfl
@[simp] theorem getV_storeAtI (k : Reg) (bs : List Byte) : (s.storeAtI bs).getV k = s.getV k := rfl
@[simp] theorem getV_setFb (k : Reg) (g : Framebuffer) : (s.setFb g).getV k = s.getV k := rfl
@[simp] theorem getV_clearOutputs (k : Reg) : s.clearOutputs.getV k = s.getV k := rfl
@[simp] theorem getV_hold (k : Reg) : s.hold.getV k = s.getV k := rfl
@[simp] theorem getV_timerTick (k : Reg) : s.timerTick.getV k = s.getV k := rfl
@[simp] theorem getV_countCycle (k : Reg) : s.countCycle.getV k = s.getV k := rfl
@[simp] theorem getV_loadOpcode (k : Reg) (w : Word) : (s.loadOpcode w).getV k = s.getV k := rfl
@[simp] theorem getV_execUnknown (k : Reg) : s.execUnknown.getV k = s.getV k := rfl
@[simp] theorem getV_setKeys (k : Reg) (ks : BitVec 16) : (s.setKeys ks).getV k = s.getV k := rfl
@[simp] theorem getV_supplyRand (k : Reg) (b : Byte) : (s.supplyRand b).getV k = s.getV k := rfl
@[simp] theorem getV_clearDraw (k : Reg) : s.clearDraw.getV k = s.getV k := rfl
@[simp] theorem getV_nextInputs (k : Reg) : s.nextInputs.getV k = s.getV k := rfl
@[simp] theorem getV_skipIf (k : Reg) (c : Bool) : (s.skipIf c).getV k = s.getV k := by cases c <;> rfl

end Sys2Proof.Machine
end

