-- ==== Sys2Proof/Laws/Ops.lean ====
section
/-!
SUPPORT. For each shared operation, what it does, said once: memory, registers, stack, faults, fetch, timers,
framebuffer, keys. Later proofs cite these and do not unfold the operations.
-/
namespace Sys2Proof.Machine

/-! ### Registers -/

/-- A register write is seen at its own index and nowhere else (00_scope.md R9). -/
@[simp] theorem getV_setV (s : State) (x k : Reg) (b : Byte) :
    (s.setV x b).getV k = if k = x then b else s.getV k := by
  simp only [State.getV, setV_V, Vector.getElem_set]
  by_cases h : k = x
  · simp [h]
  · have : ¬ x.val = k.val := fun e => h (Fin.ext e.symm)
    simp [h, this]

@[simp] theorem getV_setFlag (s : State) (k : Reg) (c : Bool) :
    (s.setFlag c).getV k = if k = 15 then flagByte c else s.getV k := getV_setV s 15 k (flagByte c)

/-- Loading all registers reads the sixteen bytes from `I` (43_index_memory.md R166). -/
@[simp] theorem getV_loadAllV (s : State) (k : Reg) : s.loadAllV.getV k = s.atI k.val := by
  obtain ⟨k, hk⟩ := k
  match k, hk with
  | 0, _ | 1, _ | 2, _ | 3, _ | 4, _ | 5, _ | 6, _ | 7, _ => rfl
  | 8, _ | 9, _ | 10, _ | 11, _ | 12, _ | 13, _ | 14, _ | 15, _ => rfl
  | n + 16, h => exact absurd h (by omega)

@[simp] theorem getV_draw (s : State) (x y : Nat) (bs : List Byte) (k : Reg) :
    (s.draw x y bs).getV k =
      if k = 15 then flagByte (drawRows x y bs (s.fb, false)).2 else s.getV k :=
  getV_setFlag (s.setFb (drawRows x y bs (s.fb, false)).1) k _

theorem allV_length (s : State) : s.allV.length = 16 := by simp [State.allV]

theorem allV_getElem (s : State) (k : Reg) : s.allV[k.val]? = some (s.getV k) := by
  simp [State.allV, State.getV]

theorem setV_self (s : State) (x : Reg) : s.setV x (s.getV x) = s := by
  simp [State.setV, State.getV]

/-! ### Memory: one byte -/

theorem lookupCell_putCell (skip : Bool) (a : Nat) (b : Byte) (cs : List Host.Cell)
    (h : cs.Pairwise (fun c d => c.1 < d.1)) (k : Nat) :
    lookupCell (putCell skip a b cs) k =
      if k = a then (if skip then none else some b) else lookupCell cs k := by
  induction cs with
  | nil => cases skip <;> simp [putCell, lookupCell, eq_comm]
  | cons c cs ih =>
    obtain ⟨n, v⟩ := c
    rw [List.pairwise_cons] at h
    have hno : ∀ m, m ≤ n → lookupCell cs m = none := by
      intro m hm
      have hlt : ∀ d ∈ cs, m < d.1 := fun d hd => Nat.lt_of_le_of_lt hm (h.1 d hd)
      clear ih h
      induction cs with
      | nil => rfl
      | cons d cs ih2 =>
        have hd : ¬ d.1 = m := by have := hlt d (by simp); omega
        simp only [lookupCell, hd, if_false]
        exact ih2 fun e he => hlt e (by simp [he])
    have ih := ih h.2
    unfold putCell
    split
    · rename_i hlt
      by_cases hk : k = a
      · subst hk
        have hne : ¬ n = k := by omega
        cases skip <;> simp [lookupCell, hne, hno k (by omega)]
      · cases skip <;> simp [lookupCell, hk, Ne.symm hk]
    · split
      · rename_i h1 h2
        subst h2
        by_cases hk : k = a
        · subst hk; cases skip <;> simp [lookupCell, hno]
        · cases skip <;> simp [lookupCell, hk, Ne.symm hk]
      · rename_i h1 h2
        have hne : ¬ n = a := fun e => h2 e.symm
        by_cases hk : k = a
        · subst hk; simp [lookupCell, hne, ih]
        · simp [lookupCell, ih, hk]

theorem cellsWf_pairwise (m : Memory) (cs : List Host.Cell) (h : cellsWf m cs = true) :
    cs.Pairwise fun c d => c.1 < d.1 := by
  induction cs with
  | nil => exact List.Pairwise.nil
  | cons c cs ih =>
    obtain ⟨n, v⟩ := c
    simp only [cellsWf, Bool.and_eq_true, List.all_eq_true, decide_eq_true_eq] at h
    exact List.Pairwise.cons (fun d hd => h.1.2 d hd) (ih h.2)

theorem unlisted_write (m : Memory) (a k : Nat) (b : Byte) :
    (m.write a b).unlisted k = m.unlisted k := rfl

@[simp] theorem font_write (m : Memory) (a : Nat) (b : Byte) : (m.write a b).font = m.font := rfl

/-- Read after write (20_memory.md R68): the written byte at its address, the old byte elsewhere. -/
theorem byteAt_write (m : Memory) (h : m.wf = true) (a k : Nat) (b : Byte) :
    (m.write a b).byteAt k = if k = a then b else m.byteAt k := by
  have hp := cellsWf_pairwise m m.cells h
  have hl : (m.write a b).cells = putCell (b == m.unlisted a) a b m.cells := rfl
  rw [Memory.byteAt, Memory.byteAt, unlisted_write, hl, lookupCell_putCell _ _ _ _ hp]
  by_cases hk : k = a
  · subst hk
    by_cases hb : b = m.unlisted k <;> simp [hb]
  · simp [hk]

theorem mem_putCell (skip : Bool) (a : Nat) (b : Byte) (cs : List Host.Cell) (c : Host.Cell)
    (h : c ∈ putCell skip a b cs) : c = (a, b) ∨ c ∈ cs := by
  induction cs with
  | nil => cases skip <;> simp_all [putCell]
  | cons d cs ih =>
    obtain ⟨k, v⟩ := d
    unfold putCell at h
    split at h
    · cases skip <;> simp_all
    · split at h
      · cases skip
        · simp at h
          rcases h with h | h <;> simp [h]
        · simp at h
          simp [h]
      · rcases List.mem_cons.mp h with h | h
        · simp [h]
        · rcases ih h with h | h <;> simp [h]

/-- Every write to an address that exists keeps the canonical form. -/
theorem wf_write (m : Memory) (h : m.wf = true) (a : Nat) (ha : a < 4096) (b : Byte) :
    (m.write a b).wf = true := by
  have key : ∀ cs, cellsWf m cs = true →
      cellsWf (m.write a b) (putCell (b == m.unlisted a) a b cs) = true := by
    intro cs
    have same : ∀ ds, cellsWf (m.write a b) ds = cellsWf m ds := by
      intro ds
      induction ds with
      | nil => rfl
      | cons d ds ih => obtain ⟨k, v⟩ := d; simp only [cellsWf, unlisted_write, ih]
    rw [same]
    induction cs with
    | nil =>
      intro _
      by_cases hb : b = m.unlisted a <;> simp [putCell, cellsWf, hb, ha]
    | cons c cs ih =>
      obtain ⟨k, v⟩ := c
      intro hc
      have hc' := hc
      simp only [cellsWf, Bool.and_eq_true, List.all_eq_true, decide_eq_true_eq] at hc'
      obtain ⟨⟨⟨hk, hv⟩, hall⟩, hcs⟩ := hc'
      unfold putCell
      split
      · rename_i hlt
        by_cases hb : b = m.unlisted a
        · simpa [hb] using hc
        · simp only [beq_eq_false_iff_ne.mpr hb, Bool.false_eq_true, if_false]
          simp only [cellsWf, Bool.and_eq_true, List.all_eq_true, decide_eq_true_eq, bne_iff_ne]
          refine ⟨⟨⟨ha, hb⟩, ?_⟩, ⟨⟨hk, by simpa using hv⟩, hall⟩, hcs⟩
          intro d hd
          rcases List.mem_cons.mp hd with rfl | hd
          · exact hlt
          · exact Nat.lt_trans hlt (hall d hd)
      · split
        · rename_i h1 h2
          subst h2
          by_cases hb : b = m.unlisted a
          · simpa [hb] using hcs
          · simp only [beq_eq_false_iff_ne.mpr hb, Bool.false_eq_true, if_false]
            simp only [cellsWf, Bool.and_eq_true, List.all_eq_true, decide_eq_true_eq, bne_iff_ne]
            exact ⟨⟨⟨ha, hb⟩, hall⟩, hcs⟩
        · rename_i h1 h2
          simp only [cellsWf, Bool.and_eq_true, List.all_eq_true, decide_eq_true_eq]
          exact ⟨⟨⟨hk, hv⟩, by
            intro d hd
            rcases mem_putCell _ a b cs d hd with rfl | hd
            · show k < a; omega
            · exact hall d hd⟩, ih hcs⟩
  exact key m.cells h

/-! ### Memory: consecutive bytes -/

@[simp] theorem font_writeBytes (m : Memory) (a : Nat) (bs : List Byte) :
    (m.writeBytes a bs).font = m.font := by
  induction bs generalizing m a with
  | nil => rfl
  | cons b bs ih => simp [Memory.writeBytes, ih]

/-- A block write within the 4096 bytes keeps the canonical form. -/
theorem wf_writeBytes (m : Memory) (h : m.wf = true) (a : Nat) (bs : List Byte)
    (ha : a + bs.length ≤ 4096) : (m.writeBytes a bs).wf = true := by
  induction bs generalizing m a with
  | nil => exact h
  | cons b bs ih =>
    simp only [List.length_cons] at ha
    exact ih (m.write a b) (wf_write m h a (by omega) b) (a + 1) (by omega)

/-- A block write is seen at its own addresses, in order, and nowhere else. -/
theorem byteAt_writeBytes (m : Memory) (h : m.wf = true) (a : Nat) (bs : List Byte)
    (ha : a + bs.length ≤ 4096) (k : Nat) :
    (m.writeBytes a bs).byteAt k =
      if a ≤ k ∧ k < a + bs.length then bs.getD (k - a) 0 else m.byteAt k := by
  induction bs generalizing m a with
  | nil =>
    rw [List.length_nil, if_neg (by omega), Memory.writeBytes]
  | cons b bs ih =>
    simp only [List.length_cons] at ha ⊢
    rw [Memory.writeBytes, ih (m.write a b) (wf_write m h a (by omega) b) (a + 1) (by omega),
      byteAt_write m h]
    by_cases hk : k = a
    · subst hk
      have h1 : ¬ (k + 1 ≤ k ∧ k < k + 1 + bs.length) := by omega
      rw [if_neg h1]; simp
    · by_cases hin : a + 1 ≤ k ∧ k < a + 1 + bs.length
      · have h2 : a ≤ k ∧ k < a + (bs.length + 1) := by omega
        have h3 : k - a = (k - (a + 1)) + 1 := by omega
        rw [if_pos hin, if_pos h2, h3, List.getD_cons_succ]
      · have h2 : ¬ (a ≤ k ∧ k < a + (bs.length + 1)) := by omega
        rw [if_neg hin, if_neg h2, if_neg hk]

@[simp] theorem readBytes_length (m : Memory) (a n : Nat) : (m.readBytes a n).length = n := by
  induction n generalizing a with
  | zero => rfl
  | succ n ih => simp [Memory.readBytes, ih]

theorem readBytes_getD (m : Memory) (a n k : Nat) (h : k < n) :
    (m.readBytes a n).getD k 0 = m.byteAt (a + k) := by
  induction n generalizing a k with
  | zero => omega
  | succ n ih =>
    cases k with
    | zero => simp [Memory.readBytes]
    | succ k =>
      rw [Memory.readBytes, List.getD_cons_succ, ih (a + 1) k (by omega)]
      congr 1; omega

/-! ### The block at `I` -/

/-- No address of the block is absent exactly when the block is empty or ends at or below 4095
(43_index_memory.md R164). -/
theorem dataFault_eq_none (s : State) (n : Nat) :
    s.dataFault n = none ↔ n = 0 ∨ s.I.toNat + (n - 1) ≤ 4095 := by
  unfold State.dataFault
  split <;> simp <;> omega

/-- What a block access answers: in range its result, out of range the latched fault. -/
theorem accessBlock_eq (s : State) (n : Nat) (t : State) :
    s.accessBlock n t =
      if n = 0 ∨ s.I.toNat + (n - 1) ≤ 4095 then .next t
      else .next (s.raise .dataOutOfRange (BitVec.ofNat 17 (max s.I.toNat 4096))) := by
  unfold State.accessBlock State.dataFault
  by_cases h : n ≠ 0 ∧ s.I.toNat + (n - 1) > 4095
  · rw [if_pos h, if_neg (by omega)]
  · rw [if_neg h, if_pos (by omega)]

/-! ### The call stack -/

theorem push_of_room (s : State) (r : Word) (h : s.sp.val < 16) :
    s.push r = some { s with stack := s.stack.set s.sp.val r, sp := ⟨s.sp.val + 1, by omega⟩ } := by
  simp [State.push, h]

theorem push_of_full (s : State) (r : Word) (h : s.sp.val = 16) : s.push r = none := by
  simp [State.push, h]

theorem pop_of_pos (s : State) (h : 0 < s.sp.val) :
    s.pop = some (s.stack[s.sp.val - 1], { s with sp := ⟨s.sp.val - 1, by omega⟩ }) := by
  simp [State.pop, h]

theorem pop_of_empty (s : State) (h : s.sp.val = 0) : s.pop = none := by simp [State.pop, h]

/-! ### Timers, fetch, the end of a step -/

theorem tickDown_toNat (b : Byte) : (tickDown b).toNat = b.toNat - 1 := by
  unfold tickDown
  split
  · rename_i h; simp [h]
  · rename_i h
    have h0 : b.toNat ≠ 0 := fun e => h (BitVec.eq_of_toNat_eq (by simpa using e))
    rw [BitVec.toNat_sub]
    have := b.isLt
    simp
    omega

/-- `beep` after the tick: it was set, or `st` was 1 (60_exceptions.md R213). -/
theorem timerTick_beep_iff (s : State) : s.timerTick.beep = true ↔ s.beep = true ∨ s.st = 1 := by
  have h1 : s.st = 1 ↔ s.st ≠ 0 ∧ tickDown s.st = 0 := by
    have hz : ∀ b : Byte, b = 0 ↔ b.toNat = 0 := fun b =>
      ⟨fun h => by simp [h], fun h => BitVec.eq_of_toNat_eq (by simpa using h)⟩
    have ho : s.st = 1 ↔ s.st.toNat = 1 :=
      ⟨fun h => by simp [h], fun h => BitVec.eq_of_toNat_eq (by simpa using h)⟩
    rw [ho, Ne, hz, hz, tickDown_toNat]
    omega
  rw [timerTick_beep, h1]
  split <;> simp_all

theorem fetchWord_eq (s : State) (h : s.pc.toNat ≤ 4094) :
    s.fetchWord = some (Word.ofBytes (s.mem.byteAt s.pc.toNat) (s.mem.byteAt (s.pc.toNat + 1))) := by
  simp [State.fetchWord, Nat.not_lt.mpr h]

theorem fetchWord_none (s : State) : s.fetchWord = none ↔ s.pc.toNat > 4094 := by
  unfold State.fetchWord; split <;> simp_all

theorem finish_completed (s : State) (h : s.fault = .none) (h2 : s.keyWait = false) :
    s.finish = s.countCycle.timerTick := by simp [State.finish, h, h2]

theorem finish_stopped (s : State) (h : s.fault ≠ .none ∨ s.keyWait = true) : s.finish = s := by
  rcases h with h | h <;> simp [State.finish, h]

/-! ### Keys -/

theorem lowestKey_some (keys : BitVec 16) (k : Nat) (h : lowestKey keys = some k) :
    k < 16 ∧ keys.getLsbD k = true ∧ ∀ j, j < k → keys.getLsbD j = false := by
  unfold lowestKey at h
  rw [List.find?_range_eq_some] at h
  obtain ⟨h1, h2, h3⟩ := h
  exact ⟨by simpa using h2, h1, fun j hj => by simpa using h3 j hj⟩

theorem lowestKey_none (keys : BitVec 16) : lowestKey keys = none ↔ keys = 0 := by
  unfold lowestKey
  rw [List.find?_eq_none]
  constructor
  · intro h
    apply BitVec.eq_of_getLsbD_eq
    intro i hi
    have := h i (List.mem_range.mpr hi)
    simpa using this
  · intro h; simp [h]

/-! ### The framebuffer -/

/-- A toggle inverts its own cell and leaves every other cell alone (44_display.md R173). -/
theorem fbCell_fbToggle (fb : Framebuffer) (y x y' x' : Nat) :
    fbCell (fbToggle fb y x) y' x' =
      if y' % 32 = y % 32 ∧ x' % 64 = x % 64 then !fbCell fb y' x' else fbCell fb y' x' := by
  unfold fbToggle
  by_cases hy : y' % 32 = y % 32
  · by_cases hx : x' % 64 = x % 64
    · simp [fbCell, hy, hx]
    · have hx' : ¬ x % 64 = x' % 64 := fun e => hx e.symm
      simp [fbCell, hy, hx, hx']
  · have hy' : ¬ y % 32 = y' % 32 := fun e => hy e.symm
    simp [fbCell, hy, hy']

@[simp] theorem fbCell_fbClear (y x : Nat) : fbCell fbClear y x = false := by
  simp [fbCell, fbClear]

end Sys2Proof.Machine
end

