-- ==== Sys2Proof/Laws/PerInstr.lean ====
section
/-!
SUPPORT. The bits of encoded words, and a statement per instruction, as syntax: its encoding satisfies its own
row of the opcode table (30_encoding.md R94).
-/
namespace Sys2Proof.Laws

/-! ### The bits of the three word formats (30_encoding.md R92) -/

theorem getLsbD_wordNNN (op : BitVec 4) (nnn : Addr12) (k : Nat) :
    (wordNNN op nnn).getLsbD k = if k < 12 then nnn.getLsbD k else op.getLsbD (k - 12) := by
  unfold wordNNN
  exact BitVec.getLsbD_append

theorem getLsbD_wordXNN (op : BitVec 4) (x : Reg) (nn : Byte) (k : Nat) :
    (wordXNN op x nn).getLsbD k =
      if k < 8 then nn.getLsbD k
      else if k - 8 < 4 then (nibble x).getLsbD (k - 8) else op.getLsbD (k - 8 - 4) := by
  unfold wordXNN
  rw [BitVec.getLsbD_append, BitVec.getLsbD_append]

theorem getLsbD_wordXYN (op : BitVec 4) (x y n : Fin 16) (k : Nat) :
    (wordXYN op x y n).getLsbD k =
      if k < 4 then (nibble n).getLsbD k
      else if k - 4 < 4 then (nibble y).getLsbD (k - 4)
      else if k - 4 - 4 < 4 then (nibble x).getLsbD (k - 4 - 4) else op.getLsbD (k - 4 - 4 - 4) := by
  unfold wordXYN
  rw [BitVec.getLsbD_append, BitVec.getLsbD_append, BitVec.getLsbD_append]

/-! ### Masking a word of each format (30_encoding.md R94) -/

theorem nibble_and_ones (v : BitVec 4) : v &&& 0xF#4 = v := by revert v; decide

theorem nibble_and_zero (v : BitVec 4) : v &&& 0x0#4 = 0#4 := by revert v; decide

/-- A row that compares the high nibble alone holds for every word of format `NNN` with that nibble. -/
theorem holds_wordNNN (op : BitVec 4) (nnn : Addr12) :
    (Row.mk 0xF000 (wordNNN op 0)).holds (wordNNN op nnn) = true := by
  have h : (op ++ nnn : BitVec (4 + 12)) &&& (0xF#4 ++ 0#12) = op ++ 0#12 := by
    rw [BitVec.and_append, nibble_and_ones, BitVec.and_zero]
  exact beq_iff_eq.mpr h

/-- The same for format `XNN`. -/
theorem holds_wordXNN (op : BitVec 4) (x : Reg) (nn : Byte) :
    (Row.mk 0xF000 (wordXNN op 0 0)).holds (wordXNN op x nn) = true := by
  have h : (op ++ nibble x ++ nn : BitVec (4 + 4 + 8)) &&& (0xF#4 ++ 0#4 ++ 0#8) = op ++ 0#4 ++ 0#8 := by
    rw [BitVec.and_append, BitVec.and_append, nibble_and_ones, nibble_and_zero, BitVec.and_zero]
  exact beq_iff_eq.mpr h

/-- A row that compares the high nibble and the low byte holds for every word of format `X` with both. -/
theorem holds_wordX (op : BitVec 4) (x : Reg) (nn : Byte) :
    (Row.mk 0xF0FF (wordXNN op 0 nn)).holds (wordXNN op x nn) = true := by
  have hn : nn &&& 0xFF#8 = nn := BitVec.and_allOnes
  have h : (op ++ nibble x ++ nn : BitVec (4 + 4 + 8)) &&& (0xF#4 ++ 0#4 ++ 0xFF#8) = op ++ 0#4 ++ nn := by
    rw [BitVec.and_append, BitVec.and_append, nibble_and_ones, nibble_and_zero, hn]
  exact beq_iff_eq.mpr h

/-- A row that compares the high and the low nibble holds for every word of format `XY` with both. -/
theorem holds_wordXY (op : BitVec 4) (x y n : Fin 16) :
    (Row.mk 0xF00F (wordXYN op 0 0 n)).holds (wordXYN op x y n) = true := by
  have h : (op ++ nibble x ++ nibble y ++ nibble n : BitVec (4 + 4 + 4 + 4)) &&&
      (0xF#4 ++ 0#4 ++ 0#4 ++ 0xF#4) = op ++ 0#4 ++ 0#4 ++ nibble n := by
    rw [BitVec.and_append, BitVec.and_append, BitVec.and_append, nibble_and_ones, nibble_and_zero,
      nibble_and_zero, nibble_and_ones]
  exact beq_iff_eq.mpr h

/-- A row that compares the high nibble alone holds for every word of format `XYN` with it. -/
theorem holds_wordXYN (op : BitVec 4) (x y n : Fin 16) :
    (Row.mk 0xF000 (wordXYN op 0 0 0)).holds (wordXYN op x y n) = true := by
  have h : (op ++ nibble x ++ nibble y ++ nibble n : BitVec (4 + 4 + 4 + 4)) &&&
      (0xF#4 ++ 0#4 ++ 0#4 ++ 0#4) = op ++ 0#4 ++ 0#4 ++ 0#4 := by
    rw [BitVec.and_append, BitVec.and_append, BitVec.and_append, nibble_and_ones, nibble_and_zero,
      nibble_and_zero, nibble_and_zero]
  exact beq_iff_eq.mpr h

/-! ### The per-instruction statement -/

/-- The encoding of the instruction satisfies the instruction's own row of the opcode table (R94). -/
def RowOfEncoding.Statement (i : Instr) : Prop := i.row.holds (encode i) = true

theorem RowOfEncoding.cls : Statement .cls := by unfold Statement; decide
theorem RowOfEncoding.ret : Statement .ret := by unfold Statement; decide
theorem RowOfEncoding.jp (nnn : Addr12) : Statement (.jp nnn) := holds_wordNNN 0x1 nnn
theorem RowOfEncoding.call (nnn : Addr12) : Statement (.call nnn) := holds_wordNNN 0x2 nnn
theorem RowOfEncoding.ldI (nnn : Addr12) : Statement (.ldI nnn) := holds_wordNNN 0xA nnn
theorem RowOfEncoding.jpV0 (nnn : Addr12) : Statement (.jpV0 nnn) := holds_wordNNN 0xB nnn
theorem RowOfEncoding.seImm (x : Reg) (nn : Byte) : Statement (.seImm x nn) := holds_wordXNN 0x3 x nn
theorem RowOfEncoding.sneImm (x : Reg) (nn : Byte) : Statement (.sneImm x nn) := holds_wordXNN 0x4 x nn
theorem RowOfEncoding.ldImm (x : Reg) (nn : Byte) : Statement (.ldImm x nn) := holds_wordXNN 0x6 x nn
theorem RowOfEncoding.addImm (x : Reg) (nn : Byte) : Statement (.addImm x nn) := holds_wordXNN 0x7 x nn
theorem RowOfEncoding.rnd (x : Reg) (nn : Byte) : Statement (.rnd x nn) := holds_wordXNN 0xC x nn
theorem RowOfEncoding.seReg (x y : Reg) : Statement (.seReg x y) := holds_wordXY 0x5 x y 0x0
theorem RowOfEncoding.ldReg (x y : Reg) : Statement (.ldReg x y) := holds_wordXY 0x8 x y 0x0
theorem RowOfEncoding.orReg (x y : Reg) : Statement (.orReg x y) := holds_wordXY 0x8 x y 0x1
theorem RowOfEncoding.andReg (x y : Reg) : Statement (.andReg x y) := holds_wordXY 0x8 x y 0x2
theorem RowOfEncoding.xorReg (x y : Reg) : Statement (.xorReg x y) := holds_wordXY 0x8 x y 0x3
theorem RowOfEncoding.addReg (x y : Reg) : Statement (.addReg x y) := holds_wordXY 0x8 x y 0x4
theorem RowOfEncoding.sub (x y : Reg) : Statement (.sub x y) := holds_wordXY 0x8 x y 0x5
theorem RowOfEncoding.shr (x y : Reg) : Statement (.shr x y) := holds_wordXY 0x8 x y 0x6
theorem RowOfEncoding.subn (x y : Reg) : Statement (.subn x y) := holds_wordXY 0x8 x y 0x7
theorem RowOfEncoding.shl (x y : Reg) : Statement (.shl x y) := holds_wordXY 0x8 x y 0xE
theorem RowOfEncoding.sneReg (x y : Reg) : Statement (.sneReg x y) := holds_wordXY 0x9 x y 0x0
theorem RowOfEncoding.drw (x y : Reg) (n : Fin 16) : Statement (.drw x y n) := holds_wordXYN 0xD x y n
theorem RowOfEncoding.skp (x : Reg) : Statement (.skp x) := holds_wordX 0xE x 0x9E
theorem RowOfEncoding.sknp (x : Reg) : Statement (.sknp x) := holds_wordX 0xE x 0xA1
theorem RowOfEncoding.ldVxDT (x : Reg) : Statement (.ldVxDT x) := holds_wordX 0xF x 0x07
theorem RowOfEncoding.ldVxK (x : Reg) : Statement (.ldVxK x) := holds_wordX 0xF x 0x0A
theorem RowOfEncoding.ldDTVx (x : Reg) : Statement (.ldDTVx x) := holds_wordX 0xF x 0x15
theorem RowOfEncoding.ldSTVx (x : Reg) : Statement (.ldSTVx x) := holds_wordX 0xF x 0x18
theorem RowOfEncoding.addI (x : Reg) : Statement (.addI x) := holds_wordX 0xF x 0x1E
theorem RowOfEncoding.ldF (x : Reg) : Statement (.ldF x) := holds_wordX 0xF x 0x29
theorem RowOfEncoding.ldB (x : Reg) : Statement (.ldB x) := holds_wordX 0xF x 0x33
theorem RowOfEncoding.storeRegs (x : Reg) : Statement (.storeRegs x) := holds_wordX 0xF x 0x55
theorem RowOfEncoding.loadRegs (x : Reg) : Statement (.loadRegs x) := holds_wordX 0xF x 0x65

end Sys2Proof.Laws
end

