-- ==== Sys2Proof/Laws/Step.lean ====
section
/-!
SUPPORT. What a step can do, said once (10_state.md R35): every later invariant is a case analysis over these
four ends of a step.
-/
namespace Sys2Proof.Machine

theorem finishStep_eq_next {r : Result} {t : State} (h : finishStep r = .next t) :
    ∃ u, r = .next u ∧ t = u.finish.nextInputs := by
  cases r with
  | next u =>
    simp only [finishStep, Host.Outcome.next.injEq] at h
    exact ⟨u, rfl, h.symm⟩
  | fault f => simp [finishStep] at h
  | refused f => simp [finishStep] at h

/-- Fetching looks at `pc` and memory only. -/
theorem fetchWord_clearOutputs (s : State) : s.clearOutputs.fetchWord = s.fetchWord := rfl

/-- The four ends of a step that answers a next state: halted, faulted at the fetch, an UNKNOWN word, or the
rule of the decoded instruction followed by the end of the step. -/
theorem step_cases {s t : State} (h : step s = .next t) :
    (s.fault ≠ .none ∧ t = s.clearOutputs.nextInputs) ∨
    (s.fault = .none ∧ s.pc.toNat > 4094 ∧
      t = (s.clearOutputs.raiseAtPc .fetchOutOfRange).nextInputs) ∨
    (s.fault = .none ∧ ∃ w r, s.fetchWord = some w ∧ decode w = .error r ∧
      t = (s.clearOutputs.loadOpcode w).execUnknown.finish.nextInputs) ∨
    (s.fault = .none ∧ ∃ w i u, s.fetchWord = some w ∧ decode w = .ok i ∧
      exec i (s.clearOutputs.loadOpcode w) = .next u ∧ t = u.finish.nextInputs) := by
  unfold step State.stepWith at h
  by_cases hf : s.fault = .none
  · rw [if_pos hf] at h
    unfold State.runCycle at h
    rw [fetchWord_clearOutputs] at h
    cases hw : s.fetchWord with
    | none =>
      rw [hw] at h
      obtain ⟨u, hu, rfl⟩ := finishStep_eq_next h
      cases hu
      refine .inr (.inl ⟨hf, (fetchWord_none s).mp hw, ?_⟩)
      rw [finish_stopped _ (.inl (by simp))]
    | some w =>
      rw [hw] at h
      obtain ⟨u, hu, rfl⟩ := finishStep_eq_next h
      unfold State.execWord at hu
      cases hd : decode w with
      | error r =>
        rw [hd] at hu
        cases hu
        exact .inr (.inr (.inl ⟨hf, w, r, rfl, hd, rfl⟩))
      | ok i =>
        rw [hd] at hu
        exact .inr (.inr (.inr ⟨hf, w, i, u, rfl, hd, hu, rfl⟩))
  · rw [if_neg hf] at h
    cases h
    exact .inl ⟨hf, rfl⟩

/-- What the end of a step leaves alone (10_state.md R35 parts 4 and 5): all but the timers, `cycles` and `beep`. -/
theorem finish_frame (s : State) :
    s.finish.V = s.V ∧ s.finish.I = s.I ∧ s.finish.pc = s.pc ∧ s.finish.opcode = s.opcode ∧
    s.finish.stack = s.stack ∧ s.finish.sp = s.sp ∧ s.finish.fb = s.fb ∧ s.finish.dirty = s.dirty ∧
    s.finish.fault = s.fault ∧ s.finish.faultInfo = s.faultInfo ∧ s.finish.mem = s.mem ∧
    s.finish.keyWait = s.keyWait ∧ s.finish.warn = s.warn ∧ s.finish.host = s.host := by
  unfold State.finish
  split <;> simp

end Sys2Proof.Machine
end

