-- ==== Sys2Proof/Laws/System.lean ====
section
/-!
SUPPORT. What a step among the host's moves does, said once (70_reset_and_hazards.md R233, R240), and how moves chain.
-/
namespace Sys2Proof.Machine

/-- A step among the moves is a step after which the key vector is the one it began with. -/
theorem requestStep_eq_next {s t : State} :
    s.requestStep = .next t ↔ ∃ u, step s = .next u ∧ t = u.setKeys s.host.keys := by
  unfold State.requestStep
  cases step s <;> simp [eq_comm]

/-- The first move, then the rest. -/
theorem moves_cons_eq_next {s t : State} {m : HostMove} {ms : List HostMove} :
    s.moves (m :: ms) = .next t ↔ ∃ u, s.move m = .next u ∧ u.moves ms = .next t := by
  rw [State.moves]
  cases s.move m <;> simp

end Sys2Proof.Machine
end

