-- ==== Sys2Proof/Tests/Slice0.lean ====
section
/-!
SUPPORT. Tests of the model: ill-formed words, decoding, one step per instruction, and for every statement with
hypotheses a witness that meets them.

Expected values come from 95_test_vectors.md (the vector's id stands in the test's docstring) and from the
encodings of 30_encoding.md, never from the model.
-/
namespace Sys2Proof.Tests
open Sys2Proof.Machine

/-! ### Builders of small states -/

/-- The instruction word `w` placed at `pc`. -/
def put (w : Nat) (s : State) : State := s.withFetchWord 16 w

/-- Reset, with some registers set. -/
def regs (ps : List (Reg × Byte)) : State := ps.foldl (fun t p => t.setV p.1 p.2) State.reset

/-- A state with bytes stored from `a` on. -/
def poke (s : State) (a : Nat) (bs : List Byte) : State := { s with mem := s.mem.writeBytes a bs }

/-- A framebuffer with the listed cells (row, column) lit. -/
def lit (cs : List (Nat × Nat)) : Framebuffer := cs.foldl (fun f c => fbToggle f c.1 c.2) fbClear

/-- One step answers a next state of which `p` holds. -/
def gives (s : State) (p : State → Bool) : Bool :=
  match step s with
  | .next t => p t
  | .fault _ | .refused _ => false

/-- The state one step answers. -/
def ran (s : State) : State :=
  match step s with
  | .next t => t
  | .fault _ | .refused _ => s

/-- The state one instruction answers. -/
def did (i : Instr) (s : State) : State :=
  match exec i s with
  | .next t => t
  | .fault _ | .refused _ => s

/-! ### Ill-formed words: one for each of the six kinds of UNKNOWN (30_encoding.md R95), and short input -/

theorem test_illformed_words_refused :
    wordWellFormed 0x0123 = false ∧ wordWellFormed 0x5121 = false ∧ wordWellFormed 0x8128 = false ∧
    wordWellFormed 0x9ABF = false ∧ wordWellFormed 0xE000 = false ∧ wordWellFormed 0xF0FF = false := by decide

theorem test_illformed_words_rejected_by_name :
    decode 0x0123 = .error .family0 ∧ decode 0x5121 = .error .family5 ∧ decode 0x8128 = .error .family8 ∧
    decode 0x9ABF = .error .family9 ∧ decode 0xE000 = .error .familyE ∧ decode 0xF0FF = .error .familyF :=
  ⟨rfl, rfl, rfl, rfl, rfl, rfl⟩

/-- Near misses of rows: 0x0000, 0x00E1 (ST5, ST7), 0x812F (ST10), 0xE19F (ST12), 0xF075 (ST14). -/
theorem test_near_misses_refused :
    wordWellFormed 0x0000 = false ∧ wordWellFormed 0x00E1 = false ∧ wordWellFormed 0x812F = false ∧
    wordWellFormed 0xE19F = false ∧ wordWellFormed 0xF075 = false := by decide

theorem test_short_input_rejected :
    decodeBytes [] = .error .truncated ∧ decodeBytes [0x6A] = .error .truncated := ⟨rfl, rfl⟩

theorem test_wellformed_words :
    wordWellFormed 0x00E0 = true ∧ wordWellFormed 0x5120 = true ∧ wordWellFormed 0x812E = true ∧
    wordWellFormed 0xE39E = true ∧ wordWellFormed 0xF065 = true := by decide

/-! ### Decoding: every constructor from a word written out from 30_encoding.md R92 and R94 -/

theorem test_decode_flow :
    decodeTableWord 16 0x00EE = some .ret ∧ decodeTableWord 16 0x1ABC = some (.jp 0xABC) ∧
    decodeTableWord 16 0x2ABC = some (.call 0xABC) ∧ decodeTableWord 16 0xBABC = some (.jpV0 0xABC) := by decide

theorem test_decode_skips :
    decodeTableWord 16 0x3A12 = some (.seImm 10 0x12) ∧ decodeTableWord 16 0x4A12 = some (.sneImm 10 0x12) ∧
    decodeTableWord 16 0x5120 = some (.seReg 1 2) ∧ decodeTableWord 16 0x9120 = some (.sneReg 1 2) ∧
    decodeTableWord 16 0xE39E = some (.skp 3) ∧ decodeTableWord 16 0xE3A1 = some (.sknp 3) := by decide

theorem test_decode_loads :
    decodeTableWord 16 0x6A12 = some (.ldImm 10 0x12) ∧ decodeTableWord 16 0x7701 = some (.addImm 7 0x01) ∧
    decodeTableWord 16 0xC30F = some (.rnd 3 0x0F) := by decide

theorem test_decode_alu :
    decodeTableWord 16 0x8120 = some (.ldReg 1 2) ∧ decodeTableWord 16 0x8121 = some (.orReg 1 2) ∧
    decodeTableWord 16 0x8122 = some (.andReg 1 2) ∧ decodeTableWord 16 0x8123 = some (.xorReg 1 2) ∧
    decodeTableWord 16 0x8124 = some (.addReg 1 2) ∧ decodeTableWord 16 0x8125 = some (.sub 1 2) ∧
    decodeTableWord 16 0x8126 = some (.shr 1 2) ∧ decodeTableWord 16 0x8127 = some (.subn 1 2) ∧
    decodeTableWord 16 0x812E = some (.shl 1 2) := by decide

theorem test_decode_index_memory :
    decodeTableWord 16 0xA300 = some (.ldI 0x300) ∧ decodeTableWord 16 0xF21E = some (.addI 2) ∧
    decodeTableWord 16 0xF029 = some (.ldF 0) ∧ decodeTableWord 16 0xF533 = some (.ldB 5) ∧
    decodeTableWord 16 0xF355 = some (.storeRegs 3) ∧ decodeTableWord 16 0xFF65 = some (.loadRegs 15) := by decide

theorem test_decode_display :
    decodeTableWord 16 0x00E0 = some .cls ∧ decodeTableWord 16 0xD123 = some (.drw 1 2 3) := by decide

theorem test_decode_timers_key :
    decodeTableWord 16 0xF307 = some (.ldVxDT 3) ∧ decodeTableWord 16 0xF50A = some (.ldVxK 5) ∧
    decodeTableWord 16 0xF215 = some (.ldDTVx 2) ∧ decodeTableWord 16 0xF418 = some (.ldSTVx 4) := by decide

/-- 20_memory.md R65: the high byte comes first. -/
theorem test_decode_bytes_big_endian : decodeBytes [0x6A, 0x12, 0xFF] = .ok (.ldImm 10 0x12, [0xFF]) := rfl

/-! ### One step of each instruction (95_test_vectors.md section 2) -/

/-- FL1: the slot keeps its bytes. -/
theorem test_ret :
    gives (put 0x00EE { State.reset with pc := 0x212, sp := 1, stack := State.reset.stack.set 0 0x206 })
      (fun t => t.pc == 0x206 && t.sp == 0 && t.stack[0] == 0x206) = true := by decide

/-- FL2. -/
theorem test_ret_empty :
    gives (put 0x00EE { State.reset with pc := 0x212 })
      (fun t => t.fault.code == 2 && t.faultInfo == 0x212 && t.pc == 0x212 && t.cycles == 0) = true := by decide

/-- FL6. -/
theorem test_jp : gives (put 0x1FFF State.reset) (fun t => t.pc == 0xFFF && t.cycles == 1) = true := by decide

/-- FL10. -/
theorem test_call_last_slot :
    gives (put 0x2210 { State.reset with pc := 0x204, sp := 15 })
      (fun t => t.pc == 0x210 && t.sp == 16 && t.stack[15] == 0x206) = true := by decide

/-- FL11. -/
theorem test_call_full :
    gives (put 0x2210 { State.reset with pc := 0x204, sp := 16 })
      (fun t => t.fault.code == 1 && t.faultInfo == 0x204 && t.pc == 0x204) = true := by decide

/-- FL13: no reduction to 12 bits. -/
theorem test_jpV0 : gives (put 0xBFFF (regs [(0, 0xFF)])) (fun t => t.pc == 0x10FE) = true := by decide

/-- SK1, SK2. -/
theorem test_seImm :
    gives (put 0x3000 (regs [])) (fun t => t.pc == 0x204) = true ∧
    gives (put 0x3000 (regs [(0, 1)])) (fun t => t.pc == 0x202) = true := by decide

/-- SK3, SK4 at 0x0300. -/
theorem test_sneImm :
    gives (put 0x4A12 { regs [(10, 0x12)] with pc := 0x300 }) (fun t => t.pc == 0x302) = true ∧
    gives (put 0x4A12 { regs [(10, 0x13)] with pc := 0x300 }) (fun t => t.pc == 0x304) = true := by decide

/-- SK5, SK6. -/
theorem test_seReg :
    gives (put 0x5120 (regs [(1, 7), (2, 7)])) (fun t => t.pc == 0x204) = true ∧
    gives (put 0x5120 (regs [(1, 7), (2, 8)])) (fun t => t.pc == 0x202) = true := by decide

/-- SK8, SK9. -/
theorem test_sneReg :
    gives (put 0x9120 (regs [(1, 7), (2, 8)])) (fun t => t.pc == 0x204) = true ∧
    gives (put 0x9120 (regs [(1, 7), (2, 7)])) (fun t => t.pc == 0x202) = true := by decide

/-- SK11, SK13. -/
theorem test_skp :
    gives (put 0xE39E ((regs [(3, 5)]).setKeys 0x0020)) (fun t => t.pc == 0x204) = true ∧
    gives (put 0xE39E ((regs [(3, 5)]).setKeys 0xFFDF)) (fun t => t.pc == 0x202) = true := by decide

/-- SK15: the index is not masked. -/
theorem test_skp_out_of_range :
    gives (put 0xE39E ((regs [(3, 0x10)]).setKeys 0xFFFF))
      (fun t => t.fault.code == 5 && t.faultInfo == 0x10 && t.pc == 0x200) = true := by decide

/-- SK16, SK17. -/
theorem test_sknp :
    gives (put 0xE3A1 ((regs [(3, 5)]).setKeys 0x0020)) (fun t => t.pc == 0x202) = true ∧
    gives (put 0xE3A1 ((regs [(3, 5)]).setKeys 0xFFDF)) (fun t => t.pc == 0x204) = true := by decide

/-- SK18. -/
theorem test_sknp_out_of_range :
    gives (put 0xE3A1 (regs [(3, 0xFF)])) (fun t => t.fault.code == 5 && t.faultInfo == 0xFF) = true := by decide

/-- AL1. -/
theorem test_ldImm : gives (put 0x6A12 (regs [])) (fun t => t.getV 10 == 0x12 && t.pc == 0x202) = true := by decide

/-- AL4: V[15] stays. -/
theorem test_addImm :
    gives (put 0x7701 (regs [(7, 0xFF), (15, 1)])) (fun t => t.getV 7 == 0 && t.getV 15 == 1) = true := by decide

/-- AL7. -/
theorem test_ldReg :
    gives (put 0x8120 (regs [(1, 1), (2, 0x5A)])) (fun t => t.getV 1 == 0x5A && t.getV 2 == 0x5A) = true := by decide

/-- AL9. -/
theorem test_orReg :
    gives (put 0x8121 (regs [(1, 0xF0), (2, 0x0F), (15, 1)])) (fun t => t.getV 1 == 0xFF && t.getV 15 == 1) = true := by
  decide

/-- AL10. -/
theorem test_andReg :
    gives (put 0x8122 (regs [(1, 0xF3), (2, 0x3C), (15, 1)])) (fun t => t.getV 1 == 0x30 && t.getV 15 == 1) = true := by
  decide

/-- AL11. -/
theorem test_xorReg :
    gives (put 0x8123 (regs [(1, 0xF3), (2, 0x3C), (15, 1)])) (fun t => t.getV 1 == 0xCF && t.getV 15 == 1) = true := by
  decide

/-- AL13, AL16. -/
theorem test_addReg :
    gives (put 0x8124 (regs [(1, 0xFF), (2, 1)])) (fun t => t.getV 1 == 0 && t.getV 15 == 1) = true ∧
    gives (put 0x8124 (regs [(1, 0xFF), (2, 0)])) (fun t => t.getV 1 == 0xFF && t.getV 15 == 0) = true := by decide

/-- AL18: the flag wins. -/
theorem test_addReg_into_flag :
    gives (put 0x8F24 (regs [(2, 1), (15, 0xFF)])) (fun t => t.getV 15 == 1) = true := by decide

/-- AL22, AL23. -/
theorem test_sub :
    gives (put 0x8125 (regs [(1, 3), (2, 5), (15, 1)])) (fun t => t.getV 1 == 0xFE && t.getV 15 == 0) = true ∧
    gives (put 0x8125 (regs [(1, 7), (2, 7)])) (fun t => t.getV 1 == 0 && t.getV 15 == 1) = true := by decide

/-- AL28: V[2] is shifted, and the old V[1] ignored. -/
theorem test_shr :
    gives (put 0x8126 (regs [(1, 0xEE), (2, 5)])) (fun t => t.getV 1 == 2 && t.getV 2 == 2 && t.getV 15 == 1) = true := by
  decide

/-- AL32: V[15] is shifted and then replaced by the flag. -/
theorem test_shr_of_flag :
    gives (put 0x81F6 (regs [(15, 7)])) (fun t => t.getV 1 == 3 && t.getV 15 == 1) = true := by decide

/-- AL34, AL35. -/
theorem test_subn :
    gives (put 0x8127 (regs [(1, 3), (2, 5)])) (fun t => t.getV 1 == 2 && t.getV 15 == 1) = true ∧
    gives (put 0x8127 (regs [(1, 5), (2, 3), (15, 1)])) (fun t => t.getV 1 == 0xFE && t.getV 15 == 0) = true := by
  decide

/-- AL38. -/
theorem test_shl :
    gives (put 0x812E (regs [(1, 0xEE), (2, 0x81)])) (fun t => t.getV 1 == 2 && t.getV 2 == 2 && t.getV 15 == 1) = true := by
  decide

/-- AL43. -/
theorem test_rnd : gives (put 0xC30F ((regs []).supplyRand 0xA7)) (fun t => t.getV 3 == 7) = true := by decide

/-- IX2. -/
theorem test_ldI : gives (put 0xAFFF { regs [] with I := 0x1234 }) (fun t => t.I == 0xFFF) = true := by decide

/-- IX3, IX4: past 0x0FFF V[15] is not written, and the sum wraps at 65536. -/
theorem test_addI :
    gives (put 0xF21E { regs [(2, 2), (15, 1)] with I := 0xFFF }) (fun t => t.I == 0x1001 && t.getV 15 == 1) = true ∧
    gives (put 0xF21E { regs [(2, 2)] with I := 0xFFFF }) (fun t => t.I == 1) = true := by decide

/-- IX6, IX7: no nibble mask. -/
theorem test_ldF :
    gives (put 0xF029 (regs [(0, 0x0A)])) (fun t => t.I == 0x32) = true ∧
    gives (put 0xF029 (regs [(0, 0xFF)])) (fun t => t.I == 0x4FB) = true := by decide

/-- IX12: the last three bytes of memory. -/
theorem test_ldB :
    gives (put 0xF533 { regs [(5, 0xFF)] with I := 0xFFD })
      (fun t => t.mem.readBytes 0xFFD 3 == [2, 5, 5] && t.I == 0xFFD) = true := by decide

/-- IX13. -/
theorem test_ldB_out_of_range :
    gives (put 0xF533 { regs [(5, 0xFF)] with I := 0xFFE })
      (fun t => t.fault.code == 4 && t.faultInfo == 0x1000 && t.mem.byteAt 0xFFE == 0) = true := by decide

/-- IX17: the X field is ignored, and I becomes 4096. -/
theorem test_storeRegs :
    gives (put 0xF055 { regs [(3, 0xAA), (15, 0xBB)] with I := 0xFF0 })
      (fun t => t.mem.byteAt 0xFF3 == 0xAA && t.mem.byteAt 0xFFF == 0xBB && t.I == 0x1000) = true := by decide

/-- IX18. -/
theorem test_storeRegs_out_of_range :
    gives (put 0xF355 { regs [(3, 0xAA)] with I := 0xFF1 })
      (fun t => t.fault.code == 4 && t.faultInfo == 0x1000 && t.I == 0xFF1 && t.mem.byteAt 0xFF4 == 0) = true := by
  decide

/-- IX21: the first sixteen bytes of the default FONT. -/
theorem test_loadRegs :
    gives (put 0xF065 (regs [])) (fun t => t.getV 0 == 0xF0 && t.getV 1 == 0x90 && t.getV 9 == 0x70 &&
      t.getV 15 == 0xF0 && t.I == 0x10) = true := by decide

/-- IX22: addresses do not wrap at 65536. -/
theorem test_loadRegs_out_of_range :
    gives (put 0xFF65 { regs [] with I := 0xFFF8 }) (fun t => t.fault.code == 4 && t.faultInfo == 0xFFF8) = true := by
  decide

/-- DS1. -/
theorem test_cls :
    gives (put 0x00E0 { regs [] with fb := lit [(0, 0), (31, 63)] })
      (fun t => !fbCell t.fb 0 0 && !fbCell t.fb 31 63 && t.dirty) = true := by decide

/-- DS6: both axes wrap. -/
theorem test_drw_wraps :
    gives (put 0xD011 (poke { regs [(0, 0xFF), (1, 0xFF)] with I := 0x300 } 0x300 [0xC0]))
      (fun t => fbCell t.fb 31 63 && fbCell t.fb 31 0 && !fbCell t.fb 31 1 && t.getV 15 == 0) = true := by decide

/-- DS7: a collision, and a cell under a 0 bit is left alone. -/
theorem test_drw_collision :
    gives (put 0xD011 (poke { regs [(0, 8), (1, 4)] with I := 0x300, fb := lit [(4, 11), (4, 12)] } 0x300 [0xF0]))
      (fun t => fbCell t.fb 4 8 && !fbCell t.fb 4 11 && fbCell t.fb 4 12 && t.getV 15 == 1) = true := by decide

/-- TK1: read before the tick. -/
theorem test_ldVxDT :
    gives (put 0xF307 { regs [] with dt := 2 }) (fun t => t.getV 3 == 2 && t.dt == 1) = true := by decide

/-- TK3. -/
theorem test_ldDTVx : gives (put 0xF215 (regs [(2, 3)])) (fun t => t.dt == 2) = true := by decide

/-- TK8, TK9: the tick beeps, the load does not. -/
theorem test_ldSTVx :
    gives (put 0xF418 (regs [(4, 1)])) (fun t => t.st == 0 && t.beep) = true ∧
    gives (put 0xF418 { regs [(4, 0)] with st := 6 }) (fun t => t.st == 0 && !t.beep) = true := by decide

/-- TK10: a held step commits nothing. -/
theorem test_ldVxK_holds :
    gives (put 0xF50A { regs [] with dt := 9, st := 1 })
      (fun t => t.keyWait && t.pc == 0x200 && t.dt == 9 && t.st == 1 && t.cycles == 0 && !t.beep) = true := by decide

/-- TK11: the lowest of keys 3 and 5. -/
theorem test_ldVxK :
    gives (put 0xF50A (State.setKeys { regs [] with dt := 9, st := 1 } 0x0028))
      (fun t => t.getV 5 == 3 && t.pc == 0x202 && t.dt == 8 && t.cycles == 1 && t.beep && !t.keyWait) = true := by decide

/-- ST4: an UNKNOWN word. -/
theorem test_unknown_word :
    gives (put 0x8128 { regs [(1, 1), (2, 2)] with dt := 3 })
      (fun t => t.warn && t.pc == 0x202 && t.dt == 2 && t.cycles == 1 && t.getV 1 == 1) = true := by decide

/-- ST15: `pc + 1` is 4096, and the opcode register is unchanged. -/
theorem test_fetch_out_of_range :
    gives { regs [] with pc := 0xFFF, opcode := 0x6A12 }
      (fun t => t.fault.code == 3 && t.faultInfo == 0xFFF && t.opcode == 0x6A12 && t.cycles == 0) = true := by decide

/-- ST20: halted. -/
theorem test_halted :
    gives (put 0x6A12 { regs [] with fault := .stackUnderflow, faultInfo := 0x212, dt := 5, st := 1 })
      (fun t => t.getV 10 == 0 && t.pc == 0x200 && t.dt == 5 && t.st == 1 && !t.beep) = true := by decide

/-- ST18: the last legal fetch. -/
theorem test_last_fetch : gives (put 0x6A12 { regs [] with pc := 0xFFE }) (fun t => t.pc == 0x1000) = true := by decide

/-- 70_reset_and_hazards.md R232: the ROM's first byte is at 512, and the next step may fetch it. -/
theorem test_launch :
    (match Launch defaultFont [0x6A, 0x12] with
     | .ok s => gives s (fun t => t.getV 10 == 0x12)
     | .error _ => false) = true := by decide

/-- 70_reset_and_hazards.md R233: the vector set once is the one the second step's SKP sees (SK11's operands). -/
theorem test_keys_stay :
    (match (poke (regs [(3, 5)]) 0x200 [0x60, 0x00, 0xE3, 0x9E]).moves [.setKeys 0x0020, .step, .step] with
     | .next t => t.pc == 0x206
     | .fault _ | .refused _ => false) = true := by decide

/-- 20_memory.md R61: writing back what an unlisted address reads as leaves equal memory. -/
theorem test_memory_canonical :
    (State.reset.mem.write 0x300 7).write 0x300 0 = State.reset.mem ∧
    (State.reset.mem.write 0 7).write 0 0xF0 = State.reset.mem := by decide

/-! ### Witnesses: for every statement with hypotheses, states and operands that meet them, clause by clause -/

theorem witness_EncodeOfDecodeIsTheWord : decode 0x812E = .ok (.shl 1 2) := rfl

theorem witness_DecodeAcceptsExactlyTheTable :
    (decode 0xF065 = .ok (.loadRegs 0) ∧ wordWellFormed 0xF065 = true) ∧
    (decode 0xF075 = .error .familyF ∧ wordWellFormed 0xF075 = false) := ⟨⟨rfl, by decide⟩, rfl, by decide⟩

theorem witness_OpcodeTableRowsExcludeEachOther :
    (Instr.shr 1 2).row.holds 0x8126 = true ∧ (Instr.sub 1 2).row.holds 0x8126 = false := by decide

/-- The last fetchable address, and reset. -/
theorem witness_StepRunsDecodedInstruction :
    (let s := put 0x6A12 { State.reset with pc := 0xFFE }
     s.fault = .none ∧ s.pc.toNat = 4094 ∧
      (0x6A12 : Word).toNat = 256 * (s.mem.byteAt s.pc.toNat).toNat + (s.mem.byteAt (s.pc.toNat + 1)).toNat) ∧
    decode 0x6A12 = .ok (.ldImm 10 0x12) := ⟨by decide, rfl⟩

/-- A completed step, with `st` at 1 and at 0; a faulted one and a held one. -/
theorem witness_EndOfStepCountsAndTicks :
    (let u : State := { State.reset with st := 1 }
     u.fault = .none ∧ u.keyWait = false) ∧
    (let u : State := State.reset
     u.fault = .none ∧ u.keyWait = false ∧ u.st = 0) ∧
    ¬ ((State.reset.raise .stackOverflow 0x200).fault = .none ∧ State.reset.keyWait = false) ∧
    ¬ (State.reset.hold.fault = .none ∧ State.reset.hold.keyWait = false) := by decide

/-- A completed step that loads no timer, at `st` 1 and at `st` 0; a completed one that loads `dt`; a faulted
one; a held one. -/
theorem witness_TimersCountCompletedSteps :
    (let s := put 0x6000 { State.reset with dt := 3, st := 1 }
     s.fault = .none ∧ step s = .next (ran s) ∧ (ran s).fault = .none ∧ (ran s).keyWait = false ∧
      (∀ x, decode (ran s).opcode ≠ .ok (.ldDTVx x)) ∧ (∀ x, decode (ran s).opcode ≠ .ok (.ldSTVx x))) ∧
    (let s := put 0xF215 (regs [(2, 3)])
     s.fault = .none ∧ step s = .next (ran s) ∧ (ran s).fault = .none ∧ (ran s).keyWait = false ∧
      (∀ x, decode (ran s).opcode ≠ .ok (.ldSTVx x))) ∧
    (let s := put 0x00EE State.reset
     s.fault = .none ∧ step s = .next (ran s) ∧ ¬ ((ran s).fault = .none ∧ (ran s).keyWait = false)) ∧
    (let s := put 0xF50A State.reset
     s.fault = .none ∧ step s = .next (ran s) ∧ ¬ ((ran s).fault = .none ∧ (ran s).keyWait = false)) := by
  refine ⟨⟨by decide, rfl, by decide, by decide, fun x h => ?_, fun x h => ?_⟩,
    ⟨by decide, rfl, by decide, by decide, fun x h => ?_⟩, ⟨by decide, rfl, by decide⟩, by decide, rfl, by decide⟩
  · exact absurd (Except.ok.inj (h.symm.trans (show decode _ = .ok (.ldImm 0 0) from rfl))) (by simp)
  · exact absurd (Except.ok.inj (h.symm.trans (show decode _ = .ok (.ldImm 0 0) from rfl))) (by simp)
  · exact absurd (Except.ok.inj (h.symm.trans (show decode _ = .ok (.ldDTVx 2) from rfl))) (by simp)

/-- At the last fetchable address, and at reset with nothing loaded. -/
theorem witness_UnknownWordIsANoOpWithWarning :
    (let s := put 0x8128 { State.reset with pc := 0xFFE }
     s.fault = .none ∧ s.fetchWord = some 0x8128 ∧ wordWellFormed 0x8128 = false) ∧
    State.reset.fault = .none ∧ State.reset.fetchWord = some 0 ∧ wordWellFormed 0 = false := by decide

/-- A step on an UNKNOWN word, and one on an instruction. -/
theorem witness_WarnMarksExactlyTheUnknownSteps :
    (step State.reset = .next (ran State.reset) ∧ State.reset.fetchWord = some 0 ∧ wordWellFormed 0 = false) ∧
    (let s := put 0x6A12 State.reset
     step s = .next (ran s) ∧ s.fetchWord = some 0x6A12 ∧ wordWellFormed 0x6A12 = true) :=
  ⟨⟨rfl, by decide⟩, rfl, by decide⟩

/-- The lowest and the highest address nothing can be fetched from. -/
theorem witness_FetchBeyondMemoryLatchesTheFault :
    (let s : State := { State.reset with pc := 4095 }
     s.fault = .none ∧ s.pc.toNat > 4094) ∧
    (let s : State := { State.reset with pc := 0xFFFF }
     s.fault = .none ∧ s.pc.toNat > 4094) := by decide

/-- An instruction that faults, and one that does not. -/
theorem witness_InstructionsFaultExactlyByTheFaultTable :
    State.reset.fault = .none ∧ FaultsWith .ret State.reset .stackUnderflow 512 ∧
    ¬ FaultsWith (.ldB 0) State.reset .dataOutOfRange 4096 :=
  ⟨by decide, ⟨by decide, rfl, by decide⟩, fun h => h.1 (.inr (by decide))⟩

theorem witness_FaultingStepIsPrecise :
    let s := put 0x2210 { State.reset with sp := 16, beep := true }
    s.fault = .none ∧ s.fetchWord = some 0x2210 ∧ step s = .next (ran s) ∧ (ran s).fault ≠ .none :=
  ⟨by decide, by decide, rfl, by decide⟩

theorem witness_FaultedMachineStaysHalted :
    (State.reset.raise .stackUnderflow 0x200).fault ≠ .none ∧ 0 < 1 := by decide

/-- The empty stack and the last free slot. -/
theorem witness_CallPushesTheReturnAddress :
    State.reset.sp.val < 16 ∧ ({ State.reset with sp := 15 } : State).sp.val < 16 ∧ (3 : Fin 16).val ≠ 15 := by decide

/-- One return address and sixteen. -/
theorem witness_ReturnPopsThePc :
    0 < ({ State.reset with sp := 1 } : State).sp.val ∧ 0 < ({ State.reset with sp := 16 } : State).sp.val := by decide

theorem witness_StackFaultsLatch :
    ({ State.reset with sp := 16 } : State).sp.val = 16 ∧ State.reset.sp.val = 0 := by decide

theorem witness_ReturnAfterCallResumesAfterIt :
    let s : State := { State.reset with sp := 15 }
    s.sp.val < 16 ∧ exec (.call 0x210) s = .next (did (.call 0x210) s) ∧ (14 : Fin 16).val < s.sp.val :=
  ⟨by decide, rfl, by decide⟩

/-- Equal and unequal. -/
theorem witness_ImmediateSkipsCompare :
    (regs [(1, 7)]).getV 1 = 7 ∧ (regs [(1, 7)]).getV 1 ≠ 8 := by decide

/-- Equal, unequal, and a low nibble that is not 0. -/
theorem witness_RegisterSkipsCompare :
    (regs [(1, 7), (2, 7)]).getV 1 = (regs [(1, 7), (2, 7)]).getV 2 ∧
    (regs [(1, 7), (2, 8)]).getV 1 ≠ (regs [(1, 7), (2, 8)]).getV 2 ∧ (1 : Fin 16) ≠ 0 := by decide

/-- The highest key, pressed and not, and the first index out of range. -/
theorem witness_KeySkipsSampleTheKeyVector :
    (let s := (regs [(3, 15)]).setKeys 0x8000
     (s.getV 3).toNat ≤ 15 ∧ s.host.keys.getLsbD (s.getV 3).toNat = true) ∧
    (let s := (regs [(3, 15)]).setKeys 0x7FFF
     (s.getV 3).toNat ≤ 15 ∧ s.host.keys.getLsbD (s.getV 3).toNat = false) ∧
    15 < ((regs [(3, 16)]).getV 3).toNat := by decide

/-- A destination that is not V[15]; sums of 255 and 256. -/
theorem witness_AddRegistersSetsCarry :
    (1 : Reg) ≠ 15 ∧
    ((regs [(1, 0xFF), (2, 0)]).getV 1).toNat + ((regs [(1, 0xFF), (2, 0)]).getV 2).toNat = 255 ∧
    ((regs [(1, 0xFF), (2, 1)]).getV 1).toNat + ((regs [(1, 0xFF), (2, 1)]).getV 2).toNat > 255 := by decide

/-- Equal operands, and a borrow. -/
theorem witness_SubtractionsSetNotBorrow :
    (1 : Reg) ≠ 15 ∧ ((regs [(1, 7), (2, 7)]).getV 2).toNat ≤ ((regs [(1, 7), (2, 7)]).getV 1).toNat ∧
    ¬ ((regs [(1, 3), (2, 5)]).getV 2).toNat ≤ ((regs [(1, 3), (2, 5)]).getV 1).toNat := by decide

theorem witness_ShiftRightWritesBothRegisters : (1 : Reg) ≠ 15 ∧ (2 : Reg) ≠ 15 := by decide

theorem witness_ShiftLeftWritesBothRegisters : (0 : Reg) ≠ 15 ∧ (14 : Reg) ≠ 15 := by decide

/-- The last three bytes of memory; an address below and one above the digits. -/
theorem witness_DecimalDigitsAreStored :
    (let s : State := { regs [(5, 0xFF)] with I := 0xFFD }
     s.mem.wf = true ∧ s.I.toNat + 2 ≤ 4095 ∧ 0xFFC < s.I.toNat) ∧
    State.reset.mem.wf = true ∧ State.reset.I.toNat + 2 < 3 := by decide

/-- The last sixteen bytes of memory. -/
theorem witness_StoreRegistersStoresAllSixteen :
    (let s : State := { regs [(3, 0xAA)] with I := 0xFF0 }
     s.mem.wf = true ∧ s.I.toNat + 15 = 4095 ∧ 0xFEF < s.I.toNat) ∧
    State.reset.mem.wf = true ∧ State.reset.I.toNat + 15 < 16 := by decide

theorem witness_LoadRegistersLoadsAllSixteen :
    ({ State.reset with I := 0xFF0 } : State).I.toNat + 15 = 4095 := by decide

/-- One byte too many for each of the four instructions, and an `I` outside memory. -/
theorem witness_AbsentBlockLatchesDataFault :
    (0 < blockBytes (.ldB 5) ∧ ({ State.reset with I := 0xFFE } : State).I.toNat + (blockBytes (.ldB 5) - 1) > 4095) ∧
    (0 < blockBytes (.storeRegs 3) ∧
      ({ State.reset with I := 0xFF1 } : State).I.toNat + (blockBytes (.storeRegs 3) - 1) > 4095) ∧
    (0 < blockBytes (.loadRegs 15) ∧
      ({ State.reset with I := 0xFFF8 } : State).I.toNat + (blockBytes (.loadRegs 15) - 1) > 4095) ∧
    0 < blockBytes (.drw 0 1 2) ∧
      ({ State.reset with I := 0xFFF } : State).I.toNat + (blockBytes (.drw 0 1 2) - 1) > 4095 := by decide

theorem witness_LoadAfterStoreRestoresRegisters :
    let s : State := { regs [(0, 0x10), (15, 0x1F)] with I := 0xFF0 }
    s.mem.wf = true ∧ s.I.toNat + 15 ≤ 4095 ∧ exec (.storeRegs 0) s = .next (did (.storeRegs 0) s) :=
  ⟨by decide, by decide, rfl⟩

/-- Program P6 of 95_test_vectors.md at its sixth step. -/
theorem witness_StoreIsSeenByTheNextFetch :
    let s := put 0xFF55 { regs [(0, 0x6A), (1, 0x99), (2, 0x12), (3, 0x0E)] with pc := 0x20A, I := 0x20C }
    s.fault = .none ∧ s.fetchWord = some 0xFF55 ∧ decode 0xFF55 = .ok (.storeRegs 15) ∧ s.mem.wf = true ∧
      s.I = s.pc + 2 ∧ s.I.toNat + 15 ≤ 4095 :=
  ⟨by decide, by decide, rfl, by decide, by decide, by decide⟩

theorem witness_ClearUnlightsEveryCell : decode 0x00E0 = .ok .cls ∧ 31 < 32 ∧ 63 < 64 := ⟨rfl, by decide⟩

/-- No rows at an `I` outside memory; one row at the last address, over a covered cell and one that is not. -/
theorem witness_DrawTogglesTheCoveredCells :
    ({ State.reset with I := 0xFFFF } : State).BlockExists 0 ∧
    (let s := poke { regs [(0, 0x3C)] with I := 0xFFF } 0xFFF [0xFF]
     s.BlockExists 1 ∧ s.SpriteCovers (s.getV 0).toNat (s.getV 1).toNat 1 0 3 ∧
      ¬ s.SpriteCovers (s.getV 0).toNat (s.getV 1).toNat 1 1 0) := by
  refine ⟨.inl rfl, .inr (by decide), ⟨0, by decide, 7, by decide, by decide, by decide, by decide⟩, ?_⟩
  rintro ⟨r, hr, j, -, h, -⟩
  have : r = 0 := by omega
  subst this
  revert h
  decide

/-- A draw over a lit cell, and one on an unlit framebuffer. -/
theorem witness_CollisionBitIsTheOrOverPixels :
    (let s := poke { regs [(0, 8), (1, 4)] with I := 0x300, fb := lit [(4, 11)] } 0x300 [0xF0]
     s.BlockExists 1 ∧ exec (.drw 0 1 1) s = .next (did (.drw 0 1 1) s) ∧
      ∃ r, r < (1 : Fin 16).val ∧ ∃ j, j < 8 ∧ (s.mem.byteAt (s.I.toNat + r)).getLsbD (7 - j) = true ∧
        fbCell s.fb (((s.getV 1).toNat + r) % 32) (((s.getV 0).toNat + j) % 64) = true) ∧
    (let s : State := { State.reset with I := 0xFFFF }
     s.BlockExists 0 ∧ exec (.drw 0 1 0) s = .next (did (.drw 0 1 0) s) ∧
      ¬ ∃ r, r < (0 : Fin 16).val ∧ ∃ j, j < 8 ∧ (s.mem.byteAt (s.I.toNat + r)).getLsbD (7 - j) = true ∧
        fbCell s.fb (((s.getV 1).toNat + r) % 32) (((s.getV 0).toNat + j) % 64) = true) :=
  ⟨⟨.inr (by decide), rfl, 0, by decide, 3, by decide, by decide, by decide⟩,
   .inl rfl, rfl, fun h => by obtain ⟨r, hr, -⟩ := h; exact absurd hr (Nat.not_lt_zero r)⟩

theorem witness_DrawingTwiceRestoresTheFramebuffer :
    let s := poke { regs [(0, 0x3C)] with I := 0xFFF } 0xFFF [0xFF]
    s.BlockExists 1 ∧ exec (.drw 0 1 1) s = .next (did (.drw 0 1 1) s) := ⟨.inr (by decide), rfl⟩

theorem witness_ReadDelayTimerBeforeTheTick :
    let s := put 0xF307 { State.reset with dt := 2 }
    s.fault = .none ∧ s.fetchWord = some 0xF307 ∧ decode 0xF307 = .ok (.ldVxDT 3) := ⟨by decide, by decide, rfl⟩

theorem witness_SetDelayTimerThenTick :
    let s := put 0xF215 (regs [(2, 3)])
    s.fault = .none ∧ s.fetchWord = some 0xF215 ∧ decode 0xF215 = .ok (.ldDTVx 2) := ⟨by decide, by decide, rfl⟩

/-- `V[4]` 1, which beeps, and 0, which does not. -/
theorem witness_SetSoundTimerThenTick :
    (let s := put 0xF418 (regs [(4, 1)])
     s.fault = .none ∧ s.fetchWord = some 0xF418 ∧ (s.getV 4).toNat = 1) ∧
    (let s := put 0xF418 { regs [(4, 0)] with st := 6 }
     s.fault = .none ∧ s.fetchWord = some 0xF418 ∧ (s.getV 4).toNat = 0) ∧
    decode 0xF418 = .ok (.ldSTVx 4) := ⟨by decide, by decide, rfl⟩

/-- Only the highest key pressed. -/
theorem witness_KeyWaitTakesTheLowestKey : ((regs []).setKeys 0x8000).host.keys ≠ 0 := by decide

theorem witness_KeyWaitHoldsUntilAKey :
    (let s := put 0xF50A ({ State.reset with dt := 9, st := 1 } : State)
     s.fault = .none ∧ s.fetchWord = some 0xF50A ∧ s.host.keys = 0) ∧
    decode 0xF50A = .ok (.ldVxK 5) ∧ (0x0028 : BitVec 16) ≠ 0 := ⟨by decide, rfl, by decide⟩

/-- A part, a register and a byte of memory that LD B does not write, and a byte it writes. -/
theorem witness_InstructionsWriteOnlyTheirTableRow :
    let s : State := { regs [(5, 0xFF)] with I := 0x300 }
    s.mem.wf = true ∧ exec (.ldB 5) s = .next (did (.ldB 5) s) ∧ Part.I ∉ writtenParts (.ldB 5) ∧
      writesReg (.ldB 5) 5 = false ∧ writesByte (.ldB 5) s 0x303 = false ∧ writesByte (.ldB 5) s 0x302 = true :=
  ⟨by decide, rfl, by decide, by decide, by decide, by decide⟩

/-- An instruction that reads no input; and a vector the host has set, through two steps. -/
theorem witness_InputsReachOnlyTheirReaders :
    (exec (.addImm 7 1) State.reset = .next (did (.addImm 7 1) State.reset) ∧
      readsKeys (.addImm 7 1) = false ∧ readsRand (.addImm 7 1) = false) ∧
    (∀ keys, HostMove.setKeys keys ∉ [HostMove.step, .step]) ∧
    (let s := State.reset.setKeys 0x0020
     s.moves [.step, .step] = .next ((ran ((ran s).setKeys 0x0020)).setKeys 0x0020)) :=
  ⟨⟨rfl, by decide⟩, fun keys => by simp, rfl⟩

theorem witness_HiddenStateDoesNotReachPrograms :
    exec (.addReg 1 2) (regs [(1, 0xFF)]) = .next (did (.addReg 1 2) (regs [(1, 0xFF)])) := rfl

/-- A jump to itself at the first and at the last address where one can stand (FL7). -/
theorem witness_AtRestStaysAtRest :
    (let s := put 0x1200 { State.reset with st := 1 }
     s.AtRest 0x200 ∧ step s = .next (ran s)) ∧
    (let s := put 0x1FFE { State.reset with pc := 0xFFE }
     s.AtRest 0xFFE ∧ step s = .next (ran s)) :=
  ⟨⟨⟨by decide, by decide, by decide, by decide⟩, rfl⟩, ⟨by decide, by decide, by decide, by decide⟩, rfl⟩

/-- The reset state meets the invariant, and so does a faulted state. -/
theorem witness_EveryStepKeepsTheMachineInvariant :
    (State.reset.Inv ∧ step State.reset = .next (ran State.reset)) ∧
    (let s := State.reset.raiseAtPc .stackUnderflow
     s.Inv ∧ step s = .next (ran s)) :=
  ⟨⟨⟨by decide, rfl, by unfold State.OutputsOk; decide,
      by unfold State.PcBounded; decide⟩, rfl⟩,
   ⟨by decide, ⟨by decide, by decide⟩, by unfold State.OutputsOk; decide, by unfold State.PcBounded; decide⟩, rfl⟩

/-- A reset, a load and a step from the reset state. -/
theorem witness_EveryHostMoveKeepsTheMachineInvariant :
    State.reset.Inv ∧ State.reset.move .reset = .next State.reset.hostReset ∧
    State.reset.move (.loadRom [0x6A]) =
      .next { State.reset with mem := State.reset.mem.writeBytes 512 [0x6A], host := { State.reset.host with loadOpen := false } } ∧
    State.reset.move .step = .next ((ran State.reset).setKeys 0) :=
  ⟨witness_EveryStepKeepsTheMachineInvariant.1.1, rfl, rfl, rfl⟩

/-- A step that completes, and one whose fetch faults. -/
theorem witness_PcNeverWrapsInARun :
    (State.reset.Inv ∧ State.reset.fault = .none ∧ step State.reset = .next (ran State.reset) ∧
      (ran State.reset).fault = .none) ∧
    (let s : State := { State.reset with pc := 4350 }
     s.Inv ∧ s.fault = .none ∧ step s = .next (ran s) ∧ (ran s).fault ≠ .none) :=
  ⟨⟨witness_EveryStepKeepsTheMachineInvariant.1.1, by decide, rfl, by decide⟩,
   ⟨by decide, rfl, by unfold State.OutputsOk; decide, by unfold State.PcBounded; decide⟩, by decide, rfl, by decide⟩

theorem witness_ResetLeavesTheResetValues :
    State.move (regs [(1, 7)]) .reset = .next (regs [(1, 7)]).hostReset ∧ 79 < 80 ∧ 80 ≤ 80 := ⟨rfl, by decide⟩

/-- The empty ROM, the largest, and one byte more. -/
theorem witness_LoadRomCopiesVerbatimOrNotAtAll :
    State.reset.mem.wf = true ∧ State.reset.host.loadOpen = true ∧ ([] : List Byte).length ≤ 3584 ∧
    (List.replicate 3584 (0x12 : Byte)).length = 3584 ∧ (List.replicate 3585 (0x12 : Byte)).length > 3584 :=
  ⟨by decide, by decide, by decide, List.length_replicate .., by rw [List.length_replicate]; decide⟩

end Sys2Proof.Tests
end

section
/-!
PROOF. The jumps of 40_flow.md (O16, O17): what the decoder reads from a word of format `NNN`, and what an
instruction that only moves `pc` leaves unchanged.
-/
namespace Sys2Proof

/-! ### The fields of a word of format `NNN` (30_encoding.md R91, R92) -/

@[simp] theorem fieldOP_wordNNN (op : BitVec 4) (nnn : Addr12) : fieldOP (wordNNN op nnn) = op :=
  BitVec.extractLsb'_append_eq_left

@[simp] theorem fieldNNN_wordNNN (op : BitVec 4) (nnn : Addr12) : fieldNNN (wordNNN op nnn) = nnn :=
  BitVec.extractLsb'_append_eq_right

theorem decode_wordNNN_jp (nnn : Addr12) : decode (wordNNN 0x1 nnn) = .ok (.jp nnn) := by
  simp [decode]

theorem decode_wordNNN_jpV0 (nnn : Addr12) : decode (wordNNN 0xB nnn) = .ok (.jpV0 nnn) := by
  simp [decode]

/-! ### Zero extension keeps the number (00_scope.md R9) -/

@[simp] theorem toNat_toWord (b : Byte) : b.toWord.toNat = b.toNat :=
  BitVec.toNat_setWidth_of_le (by decide)

namespace Machine

@[simp] theorem toNat_addrWord (nnn : Addr12) : (addrWord nnn).toNat = nnn.toNat :=
  BitVec.toNat_setWidth_of_le (by decide)

/-! ### An instruction that only moves `pc` -/

/-- The frame of a jump (00_scope.md R11). -/
theorem sameBut_jump (s : State) (w : Word) : SameBut [.pc] s (s.jump w) := by
  intro p hp
  cases p with
  | pc => simp at hp
  | V => exact fun k => getV_jump s k w
  | mem => exact fun a => congrArg (·.byteAt a) (jump_mem s w)
  | _ => rfl

theorem completesJumping_of_exec_eq_jump {i : Instr} {s : State} {w : Word}
    (h : exec i s = .next (s.jump w)) : CompletesJumping i s w.toNat :=
  ⟨s.jump w, h, congrArg BitVec.toNat (jump_pc s w), sameBut_jump s w⟩

theorem exec_jp (nnn : Addr12) (s : State) : exec (.jp nnn) s = .next (s.jump (addrWord nnn)) := rfl

theorem exec_jpV0 (nnn : Addr12) (s : State) :
    exec (.jpV0 nnn) s = .next (s.jump ((s.getV 0).toWord + addrWord nnn)) := rfl

/-- Settles O16: JP is a jump to its zero-extended operand (40_flow.md R121). -/
theorem jumpSetsPc : Obligations.JumpSetsPc := by
  intro nnn
  refine ⟨decode_wordNNN_jp nnn, fun s => ?_⟩
  rw [← toNat_addrWord nnn]
  exact completesJumping_of_exec_eq_jump (exec_jp nnn s)

/-- Settles O17: JP V0 is a jump to a 16-bit sum, whose number is the sum of the operands' numbers modulo
65536 (40_flow.md R123). -/
theorem jumpWithOffsetAddsV0 : Obligations.JumpWithOffsetAddsV0 := by
  intro nnn
  refine ⟨decode_wordNNN_jpV0 nnn, fun s => ?_⟩
  have hsum : ((s.getV 0).toWord + addrWord nnn).toNat = ((s.getV 0).toNat + nnn.toNat) % 65536 := by
    rw [BitVec.toNat_add, toNat_toWord, toNat_addrWord]
  rw [← hsum]
  exact completesJumping_of_exec_eq_jump (exec_jpV0 nnn s)

end Machine
end Sys2Proof
end

section
/-!
PROOF. The skips on an immediate of 41_skip.md (O22): what the decoder reads from a word of format `XNN`, and what an
instruction that answers `State.skipIf` does.
-/
namespace Sys2Proof

/-! ### The fields of a word of format `XNN` (30_encoding.md R91, R92) -/

@[simp] theorem fieldOP_wordXNN (op : BitVec 4) (x : Reg) (nn : Byte) : fieldOP (wordXNN op x nn) = op := by
  ext k hk
  have hnn : ¬ 12 + k < 8 := by omega
  have hx : ¬ 12 + k - 8 < 4 := by omega
  have hop : 12 + k - 8 - 4 = k := by omega
  simp only [fieldOP, BitVec.getElem_extractLsb', Laws.getLsbD_wordXNN]
  rw [if_neg hnn, if_neg hx, hop, BitVec.getLsbD_eq_getElem hk]

@[simp] theorem fieldX_wordXNN (op : BitVec 4) (x : Reg) (nn : Byte) : fieldX (wordXNN op x nn) = x := by
  have h : (wordXNN op x nn).extractLsb' 8 4 = nibble x := by
    ext k hk
    simp [Laws.getLsbD_wordXNN, hk]
  exact congrArg BitVec.toFin h

@[simp] theorem fieldNN_wordXNN (op : BitVec 4) (x : Reg) (nn : Byte) : fieldNN (wordXNN op x nn) = nn :=
  BitVec.extractLsb'_append_eq_right

theorem decode_wordXNN_seImm (x : Reg) (nn : Byte) : decode (wordXNN 0x3 x nn) = .ok (.seImm x nn) := by
  simp [decode]

theorem decode_wordXNN_sneImm (x : Reg) (nn : Byte) : decode (wordXNN 0x4 x nn) = .ok (.sneImm x nn) := by
  simp [decode]

namespace Machine

/-! ### An instruction that skips on a condition (41_skip.md R130) -/

/-- Taken or not, a skip is a jump, so it has a jump's frame (00_scope.md R11). -/
theorem sameBut_skipIf (s : State) (b : Bool) : SameBut [.pc] s (s.skipIf b) := by
  cases b with
  | true => exact sameBut_jump s (s.pc + 4)
  | false => exact sameBut_jump s (s.pc + 2)

theorem completesSkipping_of_exec_eq_skipIf {i : Instr} {s : State} {b : Bool} {c : Prop}
    (h : exec i s = .next (s.skipIf b)) (hb : b = true ↔ c) : CompletesSkipping i s c := by
  refine ⟨s.skipIf b, h, fun hc => ?_, fun hc => ?_, sameBut_skipIf s b⟩
  · rw [skipIf_pc, if_pos (hb.mpr hc)]
  · rw [skipIf_pc, if_neg (mt hb.mp hc)]

theorem exec_seImm (x : Reg) (nn : Byte) (s : State) :
    exec (.seImm x nn) s = .next (s.skipIf (s.getV x == nn)) := rfl

theorem exec_sneImm (x : Reg) (nn : Byte) (s : State) :
    exec (.sneImm x nn) s = .next (s.skipIf (s.getV x != nn)) := rfl

/-- Settles O22: SE and SNE with an immediate are skips on the comparison's Boolean (41_skip.md R131, R132). -/
theorem immediateSkipsCompare : Obligations.ImmediateSkipsCompare := by
  intro x nn
  refine ⟨decode_wordXNN_seImm x nn, decode_wordXNN_sneImm x nn, fun s => ⟨?_, ?_⟩⟩
  · exact completesSkipping_of_exec_eq_skipIf (exec_seImm x nn s) beq_iff_eq
  · exact completesSkipping_of_exec_eq_skipIf (exec_sneImm x nn s) bne_iff_ne

end Machine
end Sys2Proof
end

section
/-!
PROOF. The loads and sums with an immediate of 42_load_alu.md (O25, O26): what an instruction that answers one register
write and the default next pc does.
-/
namespace Sys2Proof

theorem decode_wordXNN_ldImm (x : Reg) (nn : Byte) : decode (wordXNN 0x6 x nn) = .ok (.ldImm x nn) := by
  simp [decode]

theorem decode_wordXNN_addImm (x : Reg) (nn : Byte) : decode (wordXNN 0x7 x nn) = .ok (.addImm x nn) := by
  simp [decode]

/-- The sum of two bytes is the sum of their numbers modulo 256 (42_load_alu.md R140). -/
theorem byte_add_eq_ofNat_mod (a b : Byte) : a + b = BitVec.ofNat 8 ((a.toNat + b.toNat) % 256) := by
  apply BitVec.eq_of_toNat_eq
  rw [BitVec.toNat_add, BitVec.toNat_ofNat, Nat.mod_mod]

namespace Machine

/-! ### Frames (00_scope.md R11) -/

/-- Two moves in a row leave unchanged what both leave unchanged. -/
theorem SameBut.trans {l m : List Part} {s t u : State} (hst : SameBut l s t) (htu : SameBut m t u) :
    SameBut (l ++ m) s u := by
  intro p hp
  have hs : p.Same s t := hst p fun h => hp (List.mem_append_left m h)
  have ht : p.Same t u := htu p fun h => hp (List.mem_append_right l h)
  cases p with
  | V => exact fun k => (ht k).trans (hs k)
  | mem => exact fun a => (ht a).trans (hs a)
  | _ => exact Eq.trans ht hs

theorem sameBut_setV (s : State) (x : Reg) (b : Byte) : SameBut [.V] s (s.setV x b) := by
  intro p hp
  cases p with
  | V => simp at hp
  | mem => exact fun a => congrArg (·.byteAt a) (setV_mem s x b)
  | _ => rfl

theorem sameRegsBut_setV (s : State) (x : Reg) (b : Byte) : SameRegsBut [x] s (s.setV x b) := by
  intro k hk
  rw [getV_setV, if_neg (List.ne_of_not_mem_cons hk)]

/-! ### An instruction that writes one register -/

/-- The default next pc is a jump, which no register sees. -/
theorem completesWriting_of_exec_eq_setV {i : Instr} {s : State} {x : Reg} {b : Byte}
    (h : exec i s = .next (s.setV x b).advance) : CompletesWriting i s x b := by
  refine ⟨(s.setV x b).advance, h, ?_, ?_, sameRegsBut_setV s x b, ?_⟩
  · rw [getV_advance, getV_setV, if_pos rfl]
  · rw [advance_pc, setV_pc]
  · exact (sameBut_setV s x b).trans (sameBut_jump (s.setV x b) (s.pc + 2))

theorem exec_ldImm (x : Reg) (nn : Byte) (s : State) : exec (.ldImm x nn) s = .next (s.setV x nn).advance := rfl

theorem exec_addImm (x : Reg) (nn : Byte) (s : State) :
    exec (.addImm x nn) s = .next (s.setV x (s.getV x + nn)).advance := rfl

/-- Settles O25: LD Vx, NN is a write of its operand to one register (42_load_alu.md R141). -/
theorem loadImmediateWritesOneRegister : Obligations.LoadImmediateWritesOneRegister := by
  intro x nn
  exact ⟨decode_wordXNN_ldImm x nn, fun s => completesWriting_of_exec_eq_setV (exec_ldImm x nn s)⟩

/-- Settles O26: ADD Vx, NN is a write of an 8-bit sum to one register; V[15] is written only as that register
(42_load_alu.md R142). -/
theorem addImmediateWrapsWithoutFlag : Obligations.AddImmediateWrapsWithoutFlag := by
  intro x nn
  refine ⟨decode_wordXNN_addImm x nn, fun s => ?_⟩
  rw [← byte_add_eq_ofNat_mod]
  exact completesWriting_of_exec_eq_setV (exec_addImm x nn s)

end Machine
end Sys2Proof
end

section
/-!
PROOF. The loads of the address register of 43_index_memory.md (O33, O35): what an instruction that answers one write
of `I` and the default next pc does.
-/
namespace Sys2Proof

theorem decode_wordNNN_ldI (nnn : Addr12) : decode (wordNNN 0xA nnn) = .ok (.ldI nnn) := by
  simp [decode]

/-- A word of family F goes to that family's own decoder, whatever its operands are (30_encoding.md R94). -/
theorem decode_wordXNN_familyF (x : Reg) (nn : Byte) : decode (wordXNN 0xF x nn) = decodeF (wordXNN 0xF x nn) := by
  simp [decode]

theorem decode_wordXNN_ldF (x : Reg) : decode (wordXNN 0xF x 0x29) = .ok (.ldF x) := by
  rw [decode_wordXNN_familyF]
  simp [decodeF]

namespace Machine

/-- The 16-bit product does not wrap: five times a byte is at most 1275 (43_index_memory.md R162). -/
@[simp] theorem toNat_glyphAddr (v : Byte) : (glyphAddr v).toNat = 5 * v.toNat := by
  have hv : v.toNat < 256 := v.isLt
  have hmul : (glyphAddr v).toNat = 5 * v.toNat % 65536 := by
    rw [glyphAddr, BitVec.toNat_mul, toNat_toWord]
    rfl
  omega

/-! ### An instruction that writes the address register -/

/-- The frame of a write of `I` (00_scope.md R11). -/
theorem sameBut_setI (s : State) (w : Word) : SameBut [.I] s (s.setI w) := by
  intro p hp
  cases p with
  | I => simp at hp
  | V => exact fun k => getV_setI s k w
  | mem => exact fun a => congrArg (·.byteAt a) (setI_mem s w)
  | _ => rfl

/-- The default next pc is a jump, which `I` does not see. -/
theorem completesSettingI_of_exec_eq_setI {i : Instr} {s : State} {w : Word}
    (h : exec i s = .next (s.setI w).advance) : CompletesSettingI i s w.toNat := by
  refine ⟨(s.setI w).advance, h, ?_, ?_, ?_⟩
  · rw [advance_I, setI_I]
  · rw [advance_pc, setI_pc]
  · exact (sameBut_setI s w).trans (sameBut_jump (s.setI w) (s.pc + 2))

theorem exec_ldI (nnn : Addr12) (s : State) : exec (.ldI nnn) s = .next (s.setI (addrWord nnn)).advance := rfl

theorem exec_ldF (x : Reg) (s : State) : exec (.ldF x) s = .next (s.setI (glyphAddr (s.getV x))).advance := rfl

/-- Settles O33: LD I is a write of its zero-extended operand to `I` (43_index_memory.md R160). -/
theorem loadAddressRegister : Obligations.LoadAddressRegister := by
  intro nnn
  refine ⟨decode_wordNNN_ldI nnn, fun s => ?_⟩
  rw [← toNat_addrWord nnn]
  exact completesSettingI_of_exec_eq_setI (exec_ldI nnn s)

/-- Settles O35: LD F is a write of a 16-bit product to `I`, and the product of a byte and 5 fits in 16 bits
(43_index_memory.md R162). -/
theorem glyphAddressIsFiveTimes : Obligations.GlyphAddressIsFiveTimes := by
  intro x
  refine ⟨decode_wordXNN_ldF x, fun s => ?_⟩
  rw [← toNat_glyphAddr (s.getV x)]
  exact completesSettingI_of_exec_eq_setI (exec_ldF x s)

end Machine
end Sys2Proof
end

section
/-!
PROOF. The collision bit of a draw (44_display.md R172; O44). The bit gathers the cells as they stand when their pixel
is drawn. A draw's pixels lie on cells of their own, since it has at most 8 columns and at most 15 rows and the axes
wrap at 64 and 32, so each of these cells stands as it did before the draw.
-/
namespace Sys2Proof.Machine

/-! ### One pixel -/

theorem drawPixel_collision (x0 y : Nat) (b : Byte) (p : Framebuffer × Bool) (j : Nat) :
    (drawPixel x0 y b p j).2 = true ↔
      p.2 = true ∨ b.getLsbD (7 - j) = true ∧ fbCell p.1 y (x0 + j) = true := by
  unfold drawPixel
  cases b.getLsbD (7 - j) with
  | true => simp
  | false => simp

/-- A pixel leaves every cell but its own alone. -/
theorem fbCell_drawPixel_of_ne (x0 y : Nat) (b : Byte) (p : Framebuffer × Bool) (j : Nat) {y' x' : Nat}
    (hne : ¬ (y' % 32 = y % 32 ∧ x' % 64 = (x0 + j) % 64)) :
    fbCell (drawPixel x0 y b p j).1 y' x' = fbCell p.1 y' x' := by
  unfold drawPixel
  cases b.getLsbD (7 - j) with
  | true => rw [if_pos rfl, fbCell_fbToggle, if_neg hne]
  | false => rw [if_neg Bool.false_ne_true]

/-! ### The first pixels of a row -/

/-- The first `m` pixels of a row leave every cell alone that is under none of them. -/
theorem fbCell_pixels_of_ne (x0 y : Nat) (b : Byte) (p : Framebuffer × Bool) (m : Nat) {y' x' : Nat}
    (hne : ∀ j, j < m → ¬ (y' % 32 = y % 32 ∧ x' % 64 = (x0 + j) % 64)) :
    fbCell ((List.range m).foldl (drawPixel x0 y b) p).1 y' x' = fbCell p.1 y' x' := by
  induction m with
  | zero => rfl
  | succ m ih =>
    rw [List.range_succ, List.foldl_append, List.foldl_cons, List.foldl_nil,
      fbCell_drawPixel_of_ne x0 y b _ m (hne m m.lt_succ_self)]
    exact ih fun j hj => hne j (Nat.lt_succ_of_lt hj)

/-- Up to 64 pixels of a row lie on columns of their own, so each one meets its cell as the row found it. -/
theorem pixels_collision (x0 y : Nat) (b : Byte) (p : Framebuffer × Bool) (m : Nat) (hm : m ≤ 64) :
    ((List.range m).foldl (drawPixel x0 y b) p).2 = true ↔
      p.2 = true ∨ ∃ j, j < m ∧ b.getLsbD (7 - j) = true ∧ fbCell p.1 y (x0 + j) = true := by
  induction m with
  | zero => simp
  | succ m ih =>
    have hcell : fbCell ((List.range m).foldl (drawPixel x0 y b) p).1 y (x0 + m) = fbCell p.1 y (x0 + m) :=
      fbCell_pixels_of_ne x0 y b p m fun j hj => by omega
    rw [List.range_succ, List.foldl_append, List.foldl_cons, List.foldl_nil, drawPixel_collision,
      ih (by omega), hcell, Nat.exists_lt_succ_right, or_assoc]

/-! ### The rows -/

/-- A row leaves the cells of every other row alone. -/
theorem fbCell_drawRow_of_ne (x0 y : Nat) (b : Byte) (p : Framebuffer × Bool) {y' : Nat} (x' : Nat)
    (hne : y' % 32 ≠ y % 32) : fbCell (drawRow x0 y b p).1 y' x' = fbCell p.1 y' x' :=
  fbCell_pixels_of_ne x0 y b p 8 fun _ _ h => hne h.1

theorem drawRow_collision (x0 y : Nat) (b : Byte) (p : Framebuffer × Bool) :
    (drawRow x0 y b p).2 = true ↔
      p.2 = true ∨ ∃ j, j < 8 ∧ b.getLsbD (7 - j) = true ∧ fbCell p.1 y (x0 + j) = true :=
  pixels_collision x0 y b p 8 (by decide)

/-- Up to 32 rows are rows of their own, so each one meets its cells as the draw found them. -/
theorem drawRows_collision (x0 y : Nat) (bs : List Byte) (p : Framebuffer × Bool) (hlen : bs.length ≤ 32) :
    (drawRows x0 y bs p).2 = true ↔
      p.2 = true ∨ ∃ r, r < bs.length ∧ ∃ j, j < 8 ∧ (bs.getD r 0).getLsbD (7 - j) = true ∧
        fbCell p.1 (y + r) (x0 + j) = true := by
  induction bs generalizing y p with
  | nil => simp [drawRows]
  | cons b bs ih =>
    rw [List.length_cons] at hlen
    have hcell : ∀ r, r < bs.length → ∀ j,
        fbCell (drawRow x0 y b p).1 (y + 1 + r) (x0 + j) = fbCell p.1 (y + (r + 1)) (x0 + j) := fun r hr j => by
      rw [fbCell_drawRow_of_ne x0 y b p (x0 + j) (by omega), Nat.add_right_comm, Nat.add_assoc]
    rw [drawRows, ih (y + 1) (drawRow x0 y b p) (by omega), drawRow_collision, List.length_cons,
      Nat.exists_lt_succ_left (n := bs.length), or_assoc]
    refine or_congr Iff.rfl (or_congr Iff.rfl (exists_congr fun r => and_congr_right fun hr => ?_))
    simp only [hcell r hr, List.getD_cons_succ]

/-! ### The instruction -/

theorem fbCell_mod (fb : Framebuffer) (y x : Nat) : fbCell fb (y % 32) (x % 64) = fbCell fb y x := by
  simp [fbCell]

theorem exec_drw_of_blockExists (x y : Reg) (n : Fin 16) (s : State) (hb : s.BlockExists n.val) :
    exec (.drw x y n) s =
      .next (s.draw (s.getV x).toNat (s.getV y).toNat (s.spriteBytes n.val)).advance := by
  have hrange : n.val = 0 ∨ s.I.toNat + (n.val - 1) ≤ 4095 := by
    unfold State.BlockExists at hb
    omega
  exact (accessBlock_eq s n.val _).trans (if_pos hrange)

/-- The collision bit of a draw on the sprite bytes at `I`. -/
theorem draw_collision (s : State) (x0 y0 n : Nat) (hn : n ≤ 32) :
    (drawRows x0 y0 (s.spriteBytes n) (s.fb, false)).2 = true ↔
      ∃ r, r < n ∧ ∃ j, j < 8 ∧ (s.mem.byteAt (s.I.toNat + r)).getLsbD (7 - j) = true ∧
        fbCell s.fb ((y0 + r) % 32) ((x0 + j) % 64) = true := by
  have hlen : (s.spriteBytes n).length = n := readBytes_length s.mem s.I.toNat n
  have hbyte : ∀ r, r < n → (s.spriteBytes n).getD r 0 = s.mem.byteAt (s.I.toNat + r) :=
    readBytes_getD s.mem s.I.toNat n
  rw [drawRows_collision x0 y0 _ _ (hlen.symm ▸ hn), hlen, or_iff_right Bool.false_ne_true]
  refine exists_congr fun r => and_congr_right fun hr => ?_
  simp only [hbyte r hr, fbCell_mod]

/-- Settles O44: DRW's V[15] is the collision bit of its rows as a byte (44_display.md R172). -/
theorem collisionBitIsTheOrOverPixels : Obligations.CollisionBitIsTheOrOverPixels := by
  intro x y n s t hb ht
  rw [exec_drw_of_blockExists x y n s hb] at ht
  cases ht
  rw [← draw_collision s _ _ n.val (by omega), getV_advance, getV_draw, if_pos rfl]
  exact ⟨fun h => by rw [h]; rfl, fun h => by rw [Bool.eq_false_iff.mpr h]; rfl⟩

end Sys2Proof.Machine
end

section
/-!
PROOF. CLS (44_display.md R170; O42): the one word that decodes to it, and what a replacement of the framebuffer leaves
unchanged.
-/
namespace Sys2Proof

/-! ### The one word of CLS (30_encoding.md R94) -/

theorem decode0_eq_ok_cls_iff (w : Word) : decode0 w = .ok .cls ↔ w = 0x00E0 := by
  unfold decode0
  by_cases hcls : w = 0x00E0
  · rw [if_pos hcls]
    exact iff_of_true rfl hcls
  · rw [if_neg hcls]
    refine iff_of_false ?_ hcls
    split
    · nofun
    · nofun

theorem decodeXY0_ne_ok_cls (w : Word) {i : Reg → Reg → Instr} (r : Reject) (hi : ∀ x y, i x y ≠ .cls) :
    decodeXY0 w i r ≠ .ok .cls := by
  unfold decodeXY0
  split
  · exact fun h => hi _ _ (Except.ok.inj h)
  · nofun

theorem decode8_ne_ok_cls (w : Word) : decode8 w ≠ .ok .cls := by
  unfold decode8
  repeat' split
  all_goals nofun

theorem decodeE_ne_ok_cls (w : Word) : decodeE w ≠ .ok .cls := by
  unfold decodeE
  repeat' split
  all_goals nofun

theorem decodeF_ne_ok_cls (w : Word) : decodeF w ≠ .ok .cls := by
  unfold decodeF
  repeat' split
  all_goals nofun

/-- Of the sixteen families only family 0 has CLS. -/
theorem decode0_of_decode_eq_ok_cls {w : Word} (h : decode w = .ok .cls) : decode0 w = .ok .cls := by
  unfold decode at h
  split at h
  case h_1 => exact h
  case h_6 => exact absurd h (decodeXY0_ne_ok_cls w .family5 nofun)
  case h_9 => exact absurd h (decode8_ne_ok_cls w)
  case h_10 => exact absurd h (decodeXY0_ne_ok_cls w .family9 nofun)
  case h_15 => exact absurd h (decodeE_ne_ok_cls w)
  case h_16 => exact absurd h (decodeF_ne_ok_cls w)
  all_goals cases h

theorem decode_eq_ok_cls_iff (w : Word) : decode w = .ok .cls ↔ w = 0x00E0 := by
  constructor
  · exact fun h => (decode0_eq_ok_cls_iff w).mp (decode0_of_decode_eq_ok_cls h)
  · rintro rfl
    rfl

namespace Machine

/-- The frame of a replaced framebuffer (00_scope.md R11). -/
theorem sameBut_setFb (s : State) (g : Framebuffer) : SameBut [.fb, .dirty] s (s.setFb g) := by
  intro p hp
  cases p with
  | fb => simp at hp
  | dirty => simp at hp
  | V => exact fun k => getV_setFb s k g
  | mem => exact fun a => congrArg (·.byteAt a) (setFb_mem s g)
  | _ => rfl

theorem exec_cls (s : State) : exec .cls s = .next (s.setFb fbClear).advance := rfl

/-- Settles O42: CLS puts the cleared framebuffer in place of the old one (44_display.md R170). -/
theorem clearUnlightsEveryCell : Obligations.ClearUnlightsEveryCell := by
  refine ⟨decode_eq_ok_cls_iff, fun s => ⟨(s.setFb fbClear).advance, exec_cls s, fun y x _ _ => ?_, ?_, ?_, ?_⟩⟩
  · rw [advance_fb, setFb_fb, fbCell_fbClear]
  · rw [advance_dirty, setFb_dirty]
  · rw [advance_pc, setFb_pc]
  · exact (sameBut_setFb s fbClear).trans (sameBut_jump (s.setFb fbClear) (s.pc + 2))

end Machine
end Sys2Proof
end

section
/-!
PROOF. The reads and loads of the timers of 45_timer_key.md (O46, O48): what a step that completes answers, and what an
instruction that answers one write of `st` and the default next pc does.
-/
namespace Sys2Proof

theorem decode_wordXNN_ldVxDT (x : Reg) : decode (wordXNN 0xF x 0x07) = .ok (.ldVxDT x) := by
  rw [decode_wordXNN_familyF]
  simp [decodeF]

theorem decode_wordXNN_ldSTVx (x : Reg) : decode (wordXNN 0xF x 0x18) = .ok (.ldSTVx x) := by
  rw [decode_wordXNN_familyF]
  simp [decodeF]

namespace Machine

/-! ### A step whose instruction completes (10_state.md R35) -/

/-- The instruction runs with the outputs at 0 and `opcode` loaded; what it left then counts a cycle, ticks and is
presented the next inputs. -/
theorem step_of_exec_completed {s u : State} {w : Word} {i : Instr} (hs : s.fault = .none)
    (hw : s.fetchWord = some w) (hi : decode w = .ok i) (hu : exec i (s.clearOutputs.loadOpcode w) = .next u)
    (hfault : u.fault = .none) (hwait : u.keyWait = false) :
    step s = .next u.countCycle.timerTick.nextInputs := by
  have hexec : (s.clearOutputs.loadOpcode w).execWord exec w = .next u := by
    rw [State.execWord, hi]
    exact hu
  rw [step, State.stepWith, if_pos hs, State.runCycle, fetchWord_clearOutputs, hw]
  simp only [hexec, finishStep, finish_completed u hfault hwait]

/-! ### LD Vx, DT (45_timer_key.md R180) -/

theorem exec_ldVxDT (x : Reg) (s : State) : exec (.ldVxDT x) s = .next (s.setV x s.dt).advance := rfl

/-- In a whole step, too, LD Vx, DT reads the old `dt`: what runs before it writes no timer, and the tick after it
writes no register. -/
theorem step_ldVxDT {x : Reg} {s : State} {w : Word} (hs : s.fault = .none) (hw : s.fetchWord = some w)
    (hi : decode w = .ok (.ldVxDT x)) :
    ∃ t, step s = .next t ∧ t.getV x = s.dt ∧ t.dt.toNat = s.dt.toNat - 1 := by
  refine ⟨_, step_of_exec_completed hs hw hi (exec_ldVxDT x _) hs rfl, ?_, ?_⟩
  · simp
  · exact tickDown_toNat s.dt

/-- Settles O46: LD Vx, DT is a write of `dt` to one register, and the tick of its step comes after it
(45_timer_key.md R180). -/
theorem readDelayTimerBeforeTheTick : Obligations.ReadDelayTimerBeforeTheTick := by
  intro x
  refine ⟨decode_wordXNN_ldVxDT x, fun s => ?_, fun s w => step_ldVxDT⟩
  exact completesWriting_of_exec_eq_setV (exec_ldVxDT x s)

/-! ### LD ST, Vx (45_timer_key.md R182) -/

/-- The frame of a write of `st` (00_scope.md R11). -/
theorem sameBut_setSt (s : State) (b : Byte) : SameBut [.st] s (s.setSt b) := by
  intro p hp
  cases p with
  | st => simp at hp
  | V => exact fun k => getV_setSt s k b
  | mem => exact fun a => congrArg (·.byteAt a) (setSt_mem s b)
  | _ => rfl

theorem exec_ldSTVx (x : Reg) (s : State) : exec (.ldSTVx x) s = .next (s.setSt (s.getV x)).advance := rfl

/-- In a whole step the tick comes after the load, so it is the loaded value that goes down and that beeps at 1. -/
theorem step_ldSTVx {x : Reg} {s : State} {w : Word} (hs : s.fault = .none) (hw : s.fetchWord = some w)
    (hi : decode w = .ok (.ldSTVx x)) :
    ∃ t, step s = .next t ∧ t.st.toNat = (s.getV x).toNat - 1 ∧ (t.beep = true ↔ (s.getV x).toNat = 1) := by
  refine ⟨_, step_of_exec_completed hs hw hi (exec_ldSTVx x _) hs rfl, ?_, ?_⟩
  · exact tickDown_toNat (s.getV x)
  · have hone : s.getV x = 1 ↔ (s.getV x).toNat = 1 := BitVec.toNat_inj.symm
    rw [nextInputs_beep, timerTick_beep_iff, ← hone]
    exact or_iff_right Bool.false_ne_true

/-- Settles O48: LD ST, Vx is a write of `V[x]` to `st`, and the tick of its step comes after it
(45_timer_key.md R182). -/
theorem setSoundTimerThenTick : Obligations.SetSoundTimerThenTick := by
  intro x
  refine ⟨decode_wordXNN_ldSTVx x, fun s => ?_, fun s w => step_ldSTVx⟩
  exact ⟨_, exec_ldSTVx x s, rfl, rfl, (sameBut_setSt s (s.getV x)).trans (sameBut_jump _ (s.pc + 2))⟩

end Machine
end Sys2Proof
end

section
/-!
PROOF. The decoder and the encoder (30_encoding.md; O1 to O5): a word is put together again from the fields of its
format, so decoding and encoding undo each other, and a row of the opcode table fixes the fields the decoder looks at.
-/
namespace Sys2Proof

/-! ### The fields of a word of format `XYN` (30_encoding.md R91, R92) -/

@[simp] theorem fieldN_wordXYN (op : BitVec 4) (x y n : Fin 16) : fieldN (wordXYN op x y n) = n :=
  congrArg BitVec.toFin (BitVec.extractLsb'_append_eq_right : _ = nibble n)

@[simp] theorem fieldY_wordXYN (op : BitVec 4) (x y n : Fin 16) : fieldY (wordXYN op x y n) = y := by
  have h : (wordXYN op x y n).extractLsb' 4 4 = nibble y := by
    ext k hk
    simp [Laws.getLsbD_wordXYN, hk]
  exact congrArg BitVec.toFin h

@[simp] theorem fieldX_wordXYN (op : BitVec 4) (x y n : Fin 16) : fieldX (wordXYN op x y n) = x := by
  have h : (wordXYN op x y n).extractLsb' 8 4 = nibble x := by
    ext k hk
    have hn : ¬ 8 + k < 4 := by omega
    have hy : ¬ 8 + k - 4 < 4 := by omega
    have hx : 8 + k - 4 - 4 = k := by omega
    simp only [BitVec.getElem_extractLsb', Laws.getLsbD_wordXYN]
    rw [if_neg hn, if_neg hy, hx, if_pos hk, BitVec.getLsbD_eq_getElem hk]
  exact congrArg BitVec.toFin h

@[simp] theorem fieldOP_wordXYN (op : BitVec 4) (x y n : Fin 16) : fieldOP (wordXYN op x y n) = op := by
  ext k hk
  have hn : ¬ 12 + k < 4 := by omega
  have hy : ¬ 12 + k - 4 < 4 := by omega
  have hx : ¬ 12 + k - 4 - 4 < 4 := by omega
  have hop : 12 + k - 4 - 4 - 4 = k := by omega
  simp only [fieldOP, BitVec.getElem_extractLsb', Laws.getLsbD_wordXYN]
  rw [if_neg hn, if_neg hy, if_neg hx, hop, BitVec.getLsbD_eq_getElem hk]

/-! ### Decoding an encoded instruction (30_encoding.md R94) -/

theorem decode_wordXYN_family8 (x y n : Fin 16) : decode (wordXYN 0x8 x y n) = decode8 (wordXYN 0x8 x y n) := by
  simp [decode]

theorem decode_wordXNN_familyE (x : Reg) (nn : Byte) : decode (wordXNN 0xE x nn) = decodeE (wordXNN 0xE x nn) := by
  simp [decode]

theorem decode_wordXYN_seReg (x y : Reg) : decode (wordXYN 0x5 x y 0) = .ok (.seReg x y) := by
  simp [decode, decodeXY0]

theorem decode_wordXYN_sneReg (x y : Reg) : decode (wordXYN 0x9 x y 0) = .ok (.sneReg x y) := by
  simp [decode, decodeXY0]

/-- Each format's fields are read back as they were written; families 8, E and F then compare a field that is a
numeral. -/
theorem decode_encode (i : Instr) : decode (encode i) = .ok i := by
  cases i with
  | cls | ret => rfl
  | jp nnn => exact decode_wordNNN_jp nnn
  | jpV0 nnn => exact decode_wordNNN_jpV0 nnn
  | ldI nnn => exact decode_wordNNN_ldI nnn
  | seImm x nn => exact decode_wordXNN_seImm x nn
  | sneImm x nn => exact decode_wordXNN_sneImm x nn
  | ldImm x nn => exact decode_wordXNN_ldImm x nn
  | addImm x nn => exact decode_wordXNN_addImm x nn
  | seReg x y => exact decode_wordXYN_seReg x y
  | sneReg x y => exact decode_wordXYN_sneReg x y
  | call | rnd | drw => simp [encode, decode]
  | ldReg | orReg | andReg | xorReg | addReg | sub | shr | subn | shl =>
    rw [encode, decode_wordXYN_family8]
    simp [decode8]
  | skp | sknp =>
    rw [encode, decode_wordXNN_familyE]
    simp [decodeE]
  | ldVxDT | ldVxK | ldDTVx | ldSTVx | addI | ldF | ldB | storeRegs | loadRegs =>
    rw [encode, decode_wordXNN_familyF]
    simp [decodeF]

theorem ofBytes_hiByte_loByte (w : Word) : Word.ofBytes w.hiByte w.loByte = w :=
  BitVec.extractLsb'_append_extractLsb'_eq_extractLsb' (by rfl) |>.trans BitVec.extractLsb'_eq_self

/-- Settles O1: the decoder reads an encoding's fields back, and an encoding's two bytes make up its word. -/
theorem decodeOfEncodeIsTheInstruction : Obligations.DecodeOfEncodeIsTheInstruction := by
  intro i rest
  refine ⟨decode_encode i, ?_⟩
  simp [encodeBytes, decodeBytes, ofBytes_hiByte_loByte, decode_encode]

/-! ### A word from its fields (30_encoding.md R91) -/

theorem wordNNN_fields (w : Word) : wordNNN (fieldOP w) (fieldNNN w) = w :=
  (BitVec.extractLsb'_append_extractLsb'_eq_extractLsb' (by rfl)).trans BitVec.extractLsb'_eq_self

theorem wordXNN_fields (w : Word) : wordXNN (fieldOP w) (fieldX w) (fieldNN w) = w := by
  have hhi : w.extractLsb' 12 4 ++ w.extractLsb' 8 4 = w.extractLsb' 8 8 :=
    BitVec.extractLsb'_append_extractLsb'_eq_extractLsb' (by rfl)
  exact (congrArg (· ++ w.extractLsb' 0 8) hhi).trans (ofBytes_hiByte_loByte w)

theorem wordXYN_fields (w : Word) : wordXYN (fieldOP w) (fieldX w) (fieldY w) (fieldN w) = w := by
  have hhi : w.extractLsb' 12 4 ++ w.extractLsb' 8 4 = w.extractLsb' 8 8 :=
    BitVec.extractLsb'_append_extractLsb'_eq_extractLsb' (by rfl)
  have hlo : w.extractLsb' 8 8 ++ w.extractLsb' 4 4 = w.extractLsb' 4 12 :=
    BitVec.extractLsb'_append_extractLsb'_eq_extractLsb' (by rfl)
  have hall : w.extractLsb' 4 12 ++ w.extractLsb' 0 4 = w.extractLsb' 0 16 :=
    BitVec.extractLsb'_append_extractLsb'_eq_extractLsb' (by rfl)
  calc wordXYN (fieldOP w) (fieldX w) (fieldY w) (fieldN w)
      = (w.extractLsb' 8 8 ++ w.extractLsb' 4 4) ++ w.extractLsb' 0 4 :=
        congrArg (· ++ w.extractLsb' 4 4 ++ w.extractLsb' 0 4) hhi
    _ = w.extractLsb' 0 16 := (congrArg (· ++ w.extractLsb' 0 4) hlo).trans hall
    _ = w := BitVec.extractLsb'_eq_self

/-! ### What a word that decodes is (30_encoding.md R94) -/

theorem encode_of_decode0 {w : Word} {i : Instr} (h : decode0 w = .ok i) : encode i = w := by
  unfold decode0 at h
  split at h
  case isTrue hw => cases h; exact hw.symm
  case isFalse =>
    split at h
    case isTrue hw => cases h; exact hw.symm
    case isFalse => cases h

theorem wordNNN_of_fieldOP {w : Word} {op : BitVec 4} (hop : fieldOP w = op) : wordNNN op (fieldNNN w) = w := by
  rw [← hop, wordNNN_fields]

/-- A word of known high and low nibble is one of format `XY`. -/
theorem wordXYN_of_fields {w : Word} {op : BitVec 4} {n : Fin 16} (hop : fieldOP w = op) (hn : fieldN w = n) :
    wordXYN op (fieldX w) (fieldY w) n = w := by
  rw [← hop, ← hn, wordXYN_fields]

/-- A word of known high nibble and low byte is one of format `X`. -/
theorem wordXNN_of_fields {w : Word} {op : BitVec 4} {nn : Byte} (hop : fieldOP w = op) (hnn : fieldNN w = nn) :
    wordXNN op (fieldX w) nn = w := by
  rw [← hop, ← hnn, wordXNN_fields]

theorem encode_of_decodeXY0 {w : Word} {op : BitVec 4} {c : Reg → Reg → Instr} {r : Reject} {i : Instr}
    (hc : ∀ x y, encode (c x y) = wordXYN op x y 0) (hop : fieldOP w = op) (h : decodeXY0 w c r = .ok i) :
    encode i = w := by
  unfold decodeXY0 at h
  split at h
  case isTrue hn => cases h; exact (hc _ _).trans (wordXYN_of_fields hop hn)
  case isFalse => cases h

theorem encode_of_decode8 {w : Word} {i : Instr} (hop : fieldOP w = 0x8) (h : decode8 w = .ok i) :
    encode i = w := by
  unfold decode8 at h
  repeat' split at h
  all_goals cases h
  all_goals exact wordXYN_of_fields hop ‹_›

theorem encode_of_decodeE {w : Word} {i : Instr} (hop : fieldOP w = 0xE) (h : decodeE w = .ok i) :
    encode i = w := by
  unfold decodeE at h
  repeat' split at h
  all_goals cases h
  all_goals exact wordXNN_of_fields hop ‹_›

theorem encode_of_decodeF {w : Word} {i : Instr} (hop : fieldOP w = 0xF) (h : decodeF w = .ok i) :
    encode i = w := by
  unfold decodeF at h
  repeat' split at h
  all_goals cases h
  all_goals exact wordXNN_of_fields hop ‹_›

theorem encode_of_decode {w : Word} {i : Instr} (h : decode w = .ok i) : encode i = w := by
  have hop {k : BitVec 4} (hk : (fieldOP w).toNat = k.toNat) : fieldOP w = k := BitVec.eq_of_toNat_eq hk
  unfold decode at h
  split at h
  case h_1 => exact encode_of_decode0 h
  case h_6 hk => exact encode_of_decodeXY0 (op := 0x5) (fun _ _ => rfl) (hop hk) h
  case h_9 hk => exact encode_of_decode8 (hop hk) h
  case h_10 hk => exact encode_of_decodeXY0 (op := 0x9) (fun _ _ => rfl) (hop hk) h
  case h_15 hk => exact encode_of_decodeE (hop hk) h
  case h_16 =>
    have hF : (fieldOP w).toNat = (0xF : BitVec 4).toNat := by
      have := (fieldOP w).isLt
      simp only [imp_false] at *
      show _ = 15
      omega
    exact encode_of_decodeF (hop hF) h
  case h_2 hk | h_3 hk | h_11 hk | h_12 hk =>
    cases h
    exact wordNNN_of_fieldOP (hop hk)
  case h_4 hk | h_5 hk | h_7 hk | h_8 hk | h_13 hk =>
    cases h
    exact wordXNN_of_fields (hop hk) rfl
  case h_14 hk =>
    cases h
    exact wordXYN_of_fields (hop hk) rfl

/-- Settles O2: every word is put together again from the fields its instruction keeps. -/
theorem encodeOfDecodeIsTheWord : Obligations.EncodeOfDecodeIsTheWord :=
  fun _ _ => encode_of_decode

/-! ### The rows of the opcode table (30_encoding.md R94) -/

theorem rowOfEncoding (i : Instr) : Laws.RowOfEncoding.Statement i := by
  cases i with
  | cls => exact Laws.RowOfEncoding.cls
  | ret => exact Laws.RowOfEncoding.ret
  | jp | call | ldI | jpV0 => exact Laws.holds_wordNNN _ _
  | seImm | sneImm | ldImm | addImm | rnd => exact Laws.holds_wordXNN _ _ _
  | seReg | ldReg | orReg | andReg | xorReg | addReg | sub | shr | subn | shl | sneReg =>
    exact Laws.holds_wordXY _ _ _ _
  | drw => exact Laws.holds_wordXYN _ _ _ _
  | skp | sknp | ldVxDT | ldVxK | ldDTVx | ldSTVx | addI | ldF | ldB | storeRegs | loadRegs =>
    exact Laws.holds_wordX _ _ _

theorem row_holds_of_decode {w : Word} {i : Instr} (h : decode w = .ok i) : i.row.holds w = true :=
  (congrArg i.row.holds (encode_of_decode h)).symm.trans (rowOfEncoding i)

/-- A row says nothing about operands, so every instruction's row is a row of the table. -/
theorem row_mem_opcodeTable (i : Instr) : i.row ∈ opcodeTable := by
  cases i <;> simp [opcodeTable, tableInstrs, Instr.row]

/-- A row whose mask has every bit of a field fixes that field. -/
theorem extractLsb'_of_holds {r : Row} {w : Word} (h : r.holds w = true) (a n : Nat)
    (hm : r.mask.extractLsb' a n = BitVec.allOnes n) : w.extractLsb' a n = r.bits.extractLsb' a n := by
  rw [← beq_iff_eq.mp h, BitVec.extractLsb'_and, hm, BitVec.and_allOnes]

/-- Every row compares the high nibble. -/
theorem fieldOP_of_row_holds {i : Instr} {w : Word} (h : i.row.holds w = true) : fieldOP w = fieldOP i.row.bits :=
  extractLsb'_of_holds h 12 4 (by cases i <;> simp [Instr.row])

theorem fieldN_of_holds {r : Row} {w : Word} (h : r.holds w = true) (hm : r.mask = 0xF00F) :
    fieldN w = fieldN r.bits :=
  congrArg BitVec.toFin (extractLsb'_of_holds h 0 4 (by rw [hm]; rfl))

theorem fieldNN_of_holds {r : Row} {w : Word} (h : r.holds w = true) (hm : r.mask = 0xF0FF) :
    fieldNN w = fieldNN r.bits :=
  extractLsb'_of_holds h 0 8 (by rw [hm]; rfl)

/-- The decoder looks at no field that the row does not fix. -/
theorem decode_ok_of_row_holds {i : Instr} {w : Word} (h : i.row.holds w = true) : ∃ j, decode w = .ok j := by
  have hop := fieldOP_of_row_holds h
  cases i
  all_goals simp only [Instr.row] at h hop
  case cls =>
    obtain rfl : w = 0x00E0 := (BitVec.and_allOnes (x := w)).symm.trans (beq_iff_eq.mp h)
    exact ⟨.cls, rfl⟩
  case ret =>
    obtain rfl : w = 0x00EE := (BitVec.and_allOnes (x := w)).symm.trans (beq_iff_eq.mp h)
    exact ⟨.ret, rfl⟩
  case jp | call | ldI | jpV0 | seImm | sneImm | ldImm | addImm | rnd | drw =>
    rw [decode, hop]
    exact ⟨_, rfl⟩
  case seReg | sneReg =>
    have hn := fieldN_of_holds h rfl
    rw [decode, decodeXY0, decodeXY0, hop, hn]
    exact ⟨_, rfl⟩
  case ldReg | orReg | andReg | xorReg | addReg | sub | shr | subn | shl =>
    have hn := fieldN_of_holds h rfl
    rw [decode, decode8, hop, hn]
    exact ⟨_, rfl⟩
  case skp | sknp =>
    have hnn := fieldNN_of_holds h rfl
    rw [decode, decodeE, hop, hnn]
    exact ⟨_, rfl⟩
  case ldVxDT | ldVxK | ldDTVx | ldSTVx | addI | ldF | ldB | storeRegs | loadRegs =>
    have hnn := fieldNN_of_holds h rfl
    rw [decode, decodeF, hop, hnn]
    exact ⟨_, rfl⟩

theorem decode_ok_iff_wordWellFormed (w : Word) : (∃ i, decode w = .ok i) ↔ wordWellFormed w = true := by
  unfold wordWellFormed
  rw [List.any_eq_true]
  constructor
  · rintro ⟨i, hi⟩
    exact ⟨i.row, row_mem_opcodeTable i, row_holds_of_decode hi⟩
  · rintro ⟨r, hr, hw⟩
    obtain ⟨i, -, rfl⟩ := List.mem_map.mp hr
    exact decode_ok_of_row_holds hw

/-- A word is UNKNOWN exactly when the decoder rejects it (30_encoding.md R95). -/
theorem decode_error_iff_not_wordWellFormed (w : Word) :
    (∃ r, decode w = .error r) ↔ wordWellFormed w = false := by
  rw [← Bool.not_eq_true, ← decode_ok_iff_wordWellFormed]
  cases decode w <;> simp

/-- Settles O3: a row fixes every field the decoder looks at, and an instruction's encoding satisfies its row. -/
theorem decodeAcceptsExactlyTheTable : Obligations.DecodeAcceptsExactlyTheTable :=
  fun w => ⟨decode_ok_iff_wordWellFormed w, fun _ => row_holds_of_decode⟩

/-! ### The rows exclude each other (30_encoding.md R94) -/

/-- The two rows ask for different values of a bit that both compare. -/
def Row.Disagree (r q : Row) : Prop := r.bits &&& q.mask ≠ q.bits &&& r.mask

theorem not_holds_of_disagree {r q : Row} (hd : r.Disagree q) (w : Word) (hr : r.holds w = true) :
    q.holds w = false := by
  refine Bool.eq_false_iff.mpr fun hq => hd ?_
  have hr : w &&& r.mask = r.bits := beq_iff_eq.mp hr
  have hq : w &&& q.mask = q.bits := beq_iff_eq.mp hq
  rw [← hr, ← hq, BitVec.and_assoc, BitVec.and_assoc, BitVec.and_comm r.mask]

theorem opcodeTable_pairwise_disagree : opcodeTable.Pairwise Row.Disagree := by
  unfold Row.Disagree
  decide

/-- Settles O4: any two rows of the table compare a bit they ask different values of. -/
theorem opcodeTableRowsExcludeEachOther : Obligations.OpcodeTableRowsExcludeEachOther :=
  opcodeTable_pairwise_disagree.imp not_holds_of_disagree

/-- Settles O5: each example is an encoding as a numeral. -/
theorem specExampleWordsDecode : Obligations.SpecExampleWordsDecode :=
  ⟨decode_encode (.jp 0x204), decode_encode (.call 0x210), decode_encode (.jpV0 0x300), decode_encode (.ldImm 10 0x12),
    decode_encode (.shr 1 2), decode_encode (.ldI 0x300), decode_encode (.drw 0 1 1), decode_encode (.ldVxK 5)⟩

end Sys2Proof
end

section
/-!
PROOF. What each instruction answers and when it faults (60_exceptions.md R200, R207; O13, O20, O39), and the frames of
the updates. One lemma says of every instruction when it faults; a latched fault and its frame follow from it for each
row of the fault table.
-/
namespace Sys2Proof.Machine

/-! ### Frames of the updates (00_scope.md R11) -/

theorem SameBut.mono {l m : List Part} {s t : State} (h : SameBut l s t) (hlm : l ⊆ m) : SameBut m s t :=
  fun p hp => h p fun hl => hp (hlm hl)

theorem sameBut_of_eq {s t : State} (h : t = s) (l : List Part) : SameBut l s t := by
  subst h
  intro p _
  cases p with
  | V => exact fun _ => rfl
  | mem => exact fun _ => rfl
  | _ => rfl

theorem sameBut_advance (s : State) : SameBut [.pc] s s.advance := sameBut_jump s (s.pc + 2)

theorem sameBut_setFlag (s : State) (c : Bool) : SameBut [.V] s (s.setFlag c) := sameBut_setV s 15 (flagByte c)

theorem sameBut_draw (s : State) (x0 y0 : Nat) (bs : List Byte) :
    SameBut [.fb, .dirty, .V] s (s.draw x0 y0 bs) :=
  (sameBut_setFb s _).trans (sameBut_setFlag _ _)

theorem sameBut_setDt (s : State) (b : Byte) : SameBut [.dt] s (s.setDt b) := by
  intro p hp
  cases p with
  | dt => simp at hp
  | V => exact fun k => getV_setDt s k b
  | mem => exact fun a => congrArg (·.byteAt a) (setDt_mem s b)
  | _ => rfl

theorem sameBut_raise (s : State) (f : FaultCode) (n : BitVec 17) :
    SameBut [.fault, .faultInfo] s (s.raise f n) := by
  intro p hp
  cases p with
  | fault => simp at hp
  | faultInfo => simp at hp
  | V => exact fun k => getV_raise s k f n
  | mem => exact fun a => congrArg (·.byteAt a) (raise_mem s f n)
  | _ => rfl

theorem sameBut_hold (s : State) : SameBut [.keyWait] s s.hold := by
  intro p hp
  cases p with
  | keyWait => simp at hp
  | V => exact getV_hold s
  | mem => exact fun a => congrArg (·.byteAt a) (hold_mem s)
  | _ => rfl

theorem sameBut_storeAtI (s : State) (bs : List Byte) : SameBut [.mem] s (s.storeAtI bs) := by
  intro p hp
  cases p with
  | mem => simp at hp
  | V => exact fun k => getV_storeAtI s k bs
  | font => exact font_writeBytes s.mem s.I.toNat bs
  | _ => rfl

theorem sameBut_loadAllV (s : State) : SameBut [.V] s s.loadAllV := by
  intro p hp
  cases p with
  | V => simp at hp
  | mem => exact fun a => congrArg (·.byteAt a) (loadAllV_mem s)
  | _ => rfl

theorem sameBut_stack_sp (s : State) (st : Vector Word 16) (n : Fin 17) :
    SameBut [.stack, .sp] s { s with stack := st, sp := n } := by
  intro p hp
  cases p with
  | stack => simp at hp
  | sp => simp at hp
  | V => exact fun _ => rfl
  | mem => exact fun _ => rfl
  | _ => rfl

theorem sameBut_sp (s : State) (n : Fin 17) : SameBut [.sp] s { s with sp := n } := by
  intro p hp
  cases p with
  | sp => simp at hp
  | V => exact fun _ => rfl
  | mem => exact fun _ => rfl
  | _ => rfl

/-! ### The instructions with more than one answer -/

theorem exec_call_of_room (nnn : Addr12) (s : State) (h : s.sp.val < 16) :
    exec (.call nnn) s =
      .next (State.jump { s with stack := s.stack.set s.sp.val (s.pc + 2), sp := ⟨s.sp.val + 1, by omega⟩ }
        (addrWord nnn)) := by
  simp only [exec, execCall, push_of_room s _ h]

theorem exec_call_of_full (nnn : Addr12) (s : State) (h : s.sp.val = 16) :
    exec (.call nnn) s = .next (s.raiseAtPc .stackOverflow) := by
  simp only [exec, execCall, push_of_full s _ h]

theorem exec_ret_of_pos (s : State) (h : 0 < s.sp.val) :
    exec .ret s =
      .next (State.jump { s with sp := ⟨s.sp.val - 1, by omega⟩ } s.stack[s.sp.val - 1]) := by
  simp only [exec, execRet, pop_of_pos s h]

theorem exec_ret_of_empty (s : State) (h : s.sp.val = 0) :
    exec .ret s = .next (s.raiseAtPc .stackUnderflow) := by
  simp only [exec, execRet, pop_of_empty s h]

theorem exec_ldVxK_of_key (x : Reg) (s : State) {k : Nat} (h : lowestKey s.host.keys = some k) :
    exec (.ldVxK x) s = .next (s.setV x (BitVec.ofNat 8 k)).advance := by
  simp only [exec, execLdVxK, h]

theorem exec_ldVxK_of_noKey (x : Reg) (s : State) (h : lowestKey s.host.keys = none) :
    exec (.ldVxK x) s = .next s.hold := by
  simp only [exec, execLdVxK, h]

theorem exec_ret_cases {s t : State} (h : exec .ret s = .next t) :
    t = s.raiseAtPc .stackUnderflow ∨
      ∃ hpos : 0 < s.sp.val, t = State.jump { s with sp := ⟨s.sp.val - 1, by omega⟩ } s.stack[s.sp.val - 1] := by
  by_cases hsp : s.sp.val = 0
  · rw [exec_ret_of_empty s hsp] at h
    exact .inl (Host.Outcome.next.inj h).symm
  · rw [exec_ret_of_pos s (Nat.pos_of_ne_zero hsp)] at h
    exact .inr ⟨Nat.pos_of_ne_zero hsp, (Host.Outcome.next.inj h).symm⟩

theorem exec_call_cases {nnn : Addr12} {s t : State} (h : exec (.call nnn) s = .next t) :
    t = s.raiseAtPc .stackOverflow ∨
      ∃ hroom : s.sp.val < 16, t =
        State.jump { s with stack := s.stack.set s.sp.val (s.pc + 2), sp := ⟨s.sp.val + 1, by omega⟩ }
          (addrWord nnn) := by
  by_cases hsp : s.sp.val = 16
  · rw [exec_call_of_full nnn s hsp] at h
    exact .inl (Host.Outcome.next.inj h).symm
  · have hroom : s.sp.val < 16 := by omega
    rw [exec_call_of_room nnn s hroom] at h
    exact .inr ⟨hroom, (Host.Outcome.next.inj h).symm⟩

theorem exec_ldVxK_cases {x : Reg} {s t : State} (h : exec (.ldVxK x) s = .next t) :
    t = s.hold ∨ ∃ k, t = (s.setV x (BitVec.ofNat 8 k)).advance := by
  cases hk : lowestKey s.host.keys with
  | none =>
    rw [exec_ldVxK_of_noKey x s hk] at h
    exact .inl (Host.Outcome.next.inj h).symm
  | some k =>
    rw [exec_ldVxK_of_key x s hk] at h
    exact .inr ⟨k, (Host.Outcome.next.inj h).symm⟩

theorem exec_drw (x y : Reg) (n : Fin 16) (s : State) :
    exec (.drw x y n) s =
      s.accessBlock n.val (s.draw (s.getV x).toNat (s.getV y).toNat (s.spriteBytes n.val)).advance := rfl

theorem exec_ldB (x : Reg) (s : State) :
    exec (.ldB x) s = s.accessBlock 3 (s.storeAtI (decimalDigits (s.getV x))).advance := rfl

theorem exec_storeRegs (x : Reg) (s : State) :
    exec (.storeRegs x) s = s.accessBlock 16 ((s.storeAtI s.allV).setI (s.I + 16)).advance := rfl

theorem exec_loadRegs (x : Reg) (s : State) :
    exec (.loadRegs x) s = s.accessBlock 16 (s.loadAllV.setI (s.I + 16)).advance := rfl

theorem exec_skp (x : Reg) (s : State) : exec (.skp x) s = s.skipOnKey x fun down => down := rfl

theorem exec_sknp (x : Reg) (s : State) : exec (.sknp x) s = s.skipOnKey x fun down => !down := rfl

/-! ### The block at `I` and the key index: in range or a latched fault -/

theorem accessBlock_of_exists {s : State} {n : Nat} (t : State) (h : s.BlockExists n) :
    s.accessBlock n t = .next t := by
  unfold State.BlockExists at h
  rw [accessBlock_eq, if_pos (by omega)]

theorem accessBlock_of_absent {s : State} {n : Nat} (t : State) (h : ¬ s.BlockExists n) :
    s.accessBlock n t = .next (s.raise .dataOutOfRange (BitVec.ofNat 17 (max s.I.toNat 4096))) := by
  unfold State.BlockExists at h
  rw [accessBlock_eq, if_neg (by omega)]

theorem accessBlock_eq_next {s t u : State} {n : Nat} (h : s.accessBlock n t = .next u) :
    s.BlockExists n ∧ u = t ∨
      u = s.raise .dataOutOfRange (BitVec.ofNat 17 (max s.I.toNat 4096)) := by
  by_cases hb : s.BlockExists n
  · rw [accessBlock_of_exists t hb] at h
    exact .inl ⟨hb, (Host.Outcome.next.inj h).symm⟩
  · rw [accessBlock_of_absent t hb] at h
    exact .inr (Host.Outcome.next.inj h).symm

theorem skipOnKey_of_le {s : State} {x : Reg} (g : Bool → Bool) (h : (s.getV x).toNat ≤ 15) :
    s.skipOnKey x g = .next (s.skipIf (g (s.keyDown (s.getV x).toNat))) :=
  if_neg (Nat.not_lt.mpr h)

theorem skipOnKey_of_gt {s : State} {x : Reg} (g : Bool → Bool) (h : 15 < (s.getV x).toNat) :
    s.skipOnKey x g = .next (s.raise .keyIndexOutOfRange ((s.getV x).setWidth 17)) :=
  if_pos h

theorem skipOnKey_eq_next {s t : State} {x : Reg} {g : Bool → Bool} (h : s.skipOnKey x g = .next t) :
    t = s.raise .keyIndexOutOfRange ((s.getV x).setWidth 17) ∨ ∃ c, t = s.skipIf c := by
  by_cases hk : (s.getV x).toNat ≤ 15
  · rw [skipOnKey_of_le g hk] at h
    exact .inr ⟨_, (Host.Outcome.next.inj h).symm⟩
  · rw [skipOnKey_of_gt g (Nat.not_le.mp hk)] at h
    exact .inl (Host.Outcome.next.inj h).symm

theorem toNat_lowestAbsent (I : Word) : (BitVec.ofNat 17 (max I.toNat 4096)).toNat = max I.toNat 4096 := by
  have hI : I.toNat < 65536 := I.isLt
  rw [BitVec.toNat_ofNat, Nat.mod_eq_of_lt (by omega)]

/-! ### The fault table (60_exceptions.md R200) -/

/-- What the instruction left says whether a row of the fault table applied: if none, the fault register is as it was;
if one, it holds what the row records and nothing else changed. -/
def ObeysFaultTable (i : Instr) (s t : State) : Prop :=
  t.fault = s.fault ∧ t.faultInfo = s.faultInfo ∧ (∀ f info, ¬ FaultsWith i s f info) ∨
    FaultsWith i s t.fault t.faultInfo.toNat ∧ SameBut [.fault, .faultInfo] s t

theorem accessBlock_obeysFaultTable {i : Instr} {s t : State}
    (hrow : ∀ f info, FaultsWith i s f info ↔
      ¬ s.BlockExists (blockBytes i) ∧ f = .dataOutOfRange ∧ info = max s.I.toNat 4096)
    (hfault : t.fault = s.fault) (hinfo : t.faultInfo = s.faultInfo) :
    ∃ u, s.accessBlock (blockBytes i) t = .next u ∧ ObeysFaultTable i s u := by
  by_cases hb : s.BlockExists (blockBytes i)
  · refine ⟨t, accessBlock_of_exists t hb, .inl ⟨hfault, hinfo, fun f info hrowf => ?_⟩⟩
    obtain ⟨habsent, -, -⟩ := (hrow f info).mp hrowf
    exact habsent hb
  · exact ⟨_, accessBlock_of_absent t hb,
      .inr ⟨(hrow _ _).mpr ⟨hb, rfl, toNat_lowestAbsent s.I⟩, sameBut_raise s _ _⟩⟩

theorem skipOnKey_obeysFaultTable {i : Instr} {s : State} {x : Reg} (g : Bool → Bool)
    (hrow : ∀ f info, FaultsWith i s f info ↔
      15 < (s.getV x).toNat ∧ f = .keyIndexOutOfRange ∧ info = (s.getV x).toNat) :
    ∃ u, s.skipOnKey x g = .next u ∧ ObeysFaultTable i s u := by
  by_cases hk : (s.getV x).toNat ≤ 15
  · refine ⟨_, skipOnKey_of_le g hk, .inl ⟨skipIf_fault s _, skipIf_faultInfo s _, fun f info hrowf => ?_⟩⟩
    obtain ⟨habove, -, -⟩ := (hrow f info).mp hrowf
    exact Nat.not_lt.mpr hk habove
  · have hk : 15 < (s.getV x).toNat := Nat.not_le.mp hk
    exact ⟨_, skipOnKey_of_gt g hk,
      .inr ⟨(hrow _ _).mpr ⟨hk, rfl, BitVec.toNat_setWidth_of_le (by decide)⟩, sameBut_raise s _ _⟩⟩

theorem toNat_setWidth_pc (s : State) : (s.pc.setWidth 17).toNat = s.pc.toNat :=
  BitVec.toNat_setWidth_of_le (by decide)

theorem exec_ret_obeysFaultTable (s : State) : ∃ t, exec .ret s = .next t ∧ ObeysFaultTable .ret s t := by
  by_cases hsp : s.sp.val = 0
  · exact ⟨_, exec_ret_of_empty s hsp, .inr ⟨⟨hsp, rfl, toNat_setWidth_pc s⟩, sameBut_raise s _ _⟩⟩
  · refine ⟨_, exec_ret_of_pos s (Nat.pos_of_ne_zero hsp), .inl ⟨rfl, rfl, fun f info hrowf => ?_⟩⟩
    obtain ⟨hempty, -, -⟩ := hrowf
    exact hsp hempty

theorem exec_call_obeysFaultTable (nnn : Addr12) (s : State) :
    ∃ t, exec (.call nnn) s = .next t ∧ ObeysFaultTable (.call nnn) s t := by
  by_cases hsp : s.sp.val = 16
  · exact ⟨_, exec_call_of_full nnn s hsp, .inr ⟨⟨hsp, rfl, toNat_setWidth_pc s⟩, sameBut_raise s _ _⟩⟩
  · refine ⟨_, exec_call_of_room nnn s (by omega), .inl ⟨rfl, rfl, fun f info hrowf => ?_⟩⟩
    obtain ⟨hfull, -, -⟩ := hrowf
    exact hsp hfull

theorem exec_ldVxK_obeysFaultTable (x : Reg) (s : State) :
    ∃ t, exec (.ldVxK x) s = .next t ∧ ObeysFaultTable (.ldVxK x) s t := by
  cases hk : lowestKey s.host.keys with
  | none => exact ⟨_, exec_ldVxK_of_noKey x s hk, .inl ⟨rfl, rfl, fun _ _ => id⟩⟩
  | some k => exact ⟨_, exec_ldVxK_of_key x s hk, .inl ⟨rfl, rfl, fun _ _ => id⟩⟩

/-- Every instruction answers a next state, and it latches a fault exactly under its row of the fault table. -/
theorem exec_obeysFaultTable (i : Instr) (s : State) : ∃ t, exec i s = .next t ∧ ObeysFaultTable i s t := by
  cases i with
  | ret => exact exec_ret_obeysFaultTable s
  | call nnn => exact exec_call_obeysFaultTable nnn s
  | ldVxK x => exact exec_ldVxK_obeysFaultTable x s
  | skp x => exact skipOnKey_obeysFaultTable (i := .skp x) (fun down => down) fun _ _ => Iff.rfl
  | sknp x => exact skipOnKey_obeysFaultTable (i := .sknp x) (fun down => !down) fun _ _ => Iff.rfl
  | drw x y n => exact accessBlock_obeysFaultTable (i := .drw x y n) (fun _ _ => Iff.rfl) rfl rfl
  | ldB x => exact accessBlock_obeysFaultTable (i := .ldB x) (fun _ _ => Iff.rfl) rfl rfl
  | storeRegs x => exact accessBlock_obeysFaultTable (i := .storeRegs x) (fun _ _ => Iff.rfl) rfl rfl
  | loadRegs x => exact accessBlock_obeysFaultTable (i := .loadRegs x) (fun _ _ => Iff.rfl) rfl rfl
  | seImm | sneImm | seReg | sneReg =>
    exact ⟨_, rfl, .inl ⟨skipIf_fault s _, skipIf_faultInfo s _, fun _ _ => id⟩⟩
  | cls | jp | ldImm | addImm | ldReg | orReg | andReg | xorReg | addReg | sub | shr | subn | shl | ldI | jpV0 | rnd
  | ldVxDT | ldDTVx | ldSTVx | addI | ldF => exact ⟨_, rfl, .inl ⟨rfl, rfl, fun _ _ => id⟩⟩

theorem obeysFaultTable_of_exec {i : Instr} {s t : State} (h : exec i s = .next t) : ObeysFaultTable i s t := by
  obtain ⟨u, hu, hrow⟩ := exec_obeysFaultTable i s
  exact Host.Outcome.next.inj (hu.symm.trans h) ▸ hrow

theorem ne_none_of_faultsWith {i : Instr} {s : State} {f : FaultCode} {info : Nat} (h : FaultsWith i s f info) :
    f ≠ .none := by
  cases i with
  | call | ret | skp | sknp | drw | ldB | storeRegs | loadRegs =>
    obtain ⟨-, rfl, -⟩ := h
    nofun
  | _ => exact h.elim

/-- A row of the fault table records one thing. -/
theorem faultsWith_unique {i : Instr} {s : State} {f g : FaultCode} {m n : Nat} (hf : FaultsWith i s f m)
    (hg : FaultsWith i s g n) : f = g ∧ m = n := by
  cases i with
  | call | ret | skp | sknp | drw | ldB | storeRegs | loadRegs =>
    obtain ⟨-, rfl, rfl⟩ := hf
    obtain ⟨-, rfl, rfl⟩ := hg
    exact ⟨rfl, rfl⟩
  | _ => exact hf.elim

/-- The instruction's row of the fault table says all of what it does. -/
theorem latchesOnly_of_faultsWith {i : Instr} {s : State} {f : FaultCode} {info : Nat} (h : FaultsWith i s f info) :
    LatchesOnly i s f info := by
  obtain ⟨t, ht, ⟨-, -, hnone⟩ | ⟨hrow, hsame⟩⟩ := exec_obeysFaultTable i s
  · exact absurd h (hnone f info)
  · obtain ⟨hf, hinfo⟩ := faultsWith_unique hrow h
    exact ⟨t, ht, hf, hinfo, hsame⟩

/-- Settles O13: the general statement for a state whose fault register is empty. -/
theorem instructionsFaultExactlyByTheFaultTable : Obligations.InstructionsFaultExactlyByTheFaultTable := by
  intro i s hs
  obtain ⟨t, ht, ⟨hfault, hinfo, hnone⟩ | ⟨hrow, hsame⟩⟩ := exec_obeysFaultTable i s
  · exact ⟨t, ht, .inl ⟨hfault.trans hs, hinfo, hnone⟩⟩
  · exact ⟨t, ht, .inr ⟨ne_none_of_faultsWith hrow, hrow, hsame⟩⟩

/-- Settles O20: both stack faults are rows of the fault table. -/
theorem stackFaultsLatch : Obligations.StackFaultsLatch :=
  fun _ => ⟨fun hfull _ => latchesOnly_of_faultsWith ⟨hfull, rfl, rfl⟩,
    fun hempty => latchesOnly_of_faultsWith ⟨hempty, rfl, rfl⟩⟩

/-- Settles O39: a block that reaches beyond 4095 is the row of the four instructions that access one. -/
theorem absentBlockLatchesDataFault : Obligations.AbsentBlockLatchesDataFault := by
  intro i s hpos hlast
  have habsent : ¬ s.BlockExists (blockBytes i) := by
    unfold State.BlockExists
    omega
  cases i with
  | drw | ldB | storeRegs | loadRegs => exact latchesOnly_of_faultsWith ⟨habsent, rfl, rfl⟩
  | _ => exact absurd hpos (Nat.lt_irrefl 0)

end Sys2Proof.Machine
end

section
/-!
PROOF. What an instruction writes (10_state.md R40; O51): the parts, the registers and the bytes of its row of the
access table. The bytes it stores are named once, so what it leaves of memory follows from the law of a block write.
-/
namespace Sys2Proof.Machine

/-! ### Parts -/

/-- A block access writes what its result writes, or the fault register. -/
theorem accessBlock_sameBut {s t u : State} {n : Nat} {l : List Part} (hst : SameBut l s t)
    (hu : s.accessBlock n t = .next u) : SameBut (l ++ [.fault, .faultInfo]) s u := by
  obtain ⟨-, rfl⟩ | rfl := accessBlock_eq_next hu
  · exact hst.mono (List.subset_append_left l _)
  · exact (sameBut_raise s _ _).mono (List.subset_append_right l _)

theorem skipOnKey_sameBut {s u : State} {x : Reg} (g : Bool → Bool) (hu : s.skipOnKey x g = .next u) :
    SameBut [.pc, .fault, .faultInfo] s u := by
  obtain rfl | ⟨c, rfl⟩ := skipOnKey_eq_next hu
  · exact (sameBut_raise s _ _).mono (by simp)
  · exact (sameBut_skipIf s c).mono (by simp)

theorem exec_ret_sameBut {s t : State} (h : exec .ret s = .next t) : SameBut [.pc, .sp, .fault, .faultInfo] s t := by
  obtain rfl | ⟨hpos, rfl⟩ := exec_ret_cases h
  · exact (sameBut_raise s _ _).mono (by simp)
  · exact ((sameBut_sp s _).trans (sameBut_jump _ _)).mono (by simp)

theorem exec_call_sameBut {nnn : Addr12} {s t : State} (h : exec (.call nnn) s = .next t) :
    SameBut [.pc, .stack, .sp, .fault, .faultInfo] s t := by
  obtain rfl | ⟨hroom, rfl⟩ := exec_call_cases h
  · exact (sameBut_raise s _ _).mono (by simp)
  · exact ((sameBut_stack_sp s _ _).trans (sameBut_jump _ _)).mono (by simp)

theorem exec_ldVxK_sameBut {x : Reg} {s t : State} (h : exec (.ldVxK x) s = .next t) :
    SameBut [.V, .pc, .keyWait] s t := by
  obtain rfl | ⟨k, rfl⟩ := exec_ldVxK_cases h
  · exact (sameBut_hold s).mono (by simp)
  · exact ((sameBut_setV s x _).trans (sameBut_advance _)).mono (by simp)

/-- The parts of an instruction's row of the access table, registers and memory counted whole. -/
theorem exec_sameBut {i : Instr} {s t : State} (h : exec i s = .next t) :
    SameBut (.V :: .mem :: writtenParts i) s t := by
  cases i with
  | cls =>
    cases h
    exact ((sameBut_setFb s _).trans (sameBut_advance _)).mono (by simp [writtenParts])
  | ret => exact (exec_ret_sameBut h).mono (by simp [writtenParts])
  | call => exact (exec_call_sameBut h).mono (by simp [writtenParts])
  | jp | jpV0 =>
    cases h
    exact (sameBut_jump s _).mono (by simp [writtenParts])
  | seImm | sneImm | seReg | sneReg =>
    cases h
    exact (sameBut_skipIf s _).mono (by simp [writtenParts])
  | ldImm | addImm | ldReg | orReg | andReg | xorReg | rnd | ldVxDT =>
    cases h
    exact ((sameBut_setV s _ _).trans (sameBut_advance _)).mono (by simp [writtenParts])
  | addReg | sub | subn =>
    cases h
    exact (((sameBut_setV s _ _).trans (sameBut_setFlag _ _)).trans (sameBut_advance _)).mono (by simp [writtenParts])
  | shr | shl =>
    cases h
    exact ((((sameBut_setV s _ _).trans (sameBut_setV _ _ _)).trans (sameBut_setFlag _ _)).trans
      (sameBut_advance _)).mono (by simp [writtenParts])
  | ldI | addI | ldF =>
    cases h
    exact ((sameBut_setI s _).trans (sameBut_advance _)).mono (by simp [writtenParts])
  | ldDTVx =>
    cases h
    exact ((sameBut_setDt s _).trans (sameBut_advance _)).mono (by simp [writtenParts])
  | ldSTVx =>
    cases h
    exact ((sameBut_setSt s _).trans (sameBut_advance _)).mono (by simp [writtenParts])
  | ldVxK => exact (exec_ldVxK_sameBut h).mono (by simp [writtenParts])
  | skp => exact skipOnKey_sameBut (fun down => down) h |>.mono (by simp [writtenParts])
  | sknp => exact skipOnKey_sameBut (fun down => !down) h |>.mono (by simp [writtenParts])
  | drw =>
    exact (accessBlock_sameBut ((sameBut_draw s _ _ _).trans (sameBut_advance _)) h).mono (by simp [writtenParts])
  | ldB =>
    exact (accessBlock_sameBut ((sameBut_storeAtI s _).trans (sameBut_advance _)) h).mono (by simp [writtenParts])
  | storeRegs =>
    exact (accessBlock_sameBut (((sameBut_storeAtI s _).trans (sameBut_setI _ _)).trans (sameBut_advance _)) h).mono
      (by simp [writtenParts])
  | loadRegs =>
    exact (accessBlock_sameBut (((sameBut_loadAllV s).trans (sameBut_setI _ _)).trans (sameBut_advance _)) h).mono
      (by simp [writtenParts])

/-! ### Registers -/

theorem getV_of_sameBut {l : List Part} {s t : State} (h : SameBut l s t) (hV : .V ∉ l) (k : Reg) :
    t.getV k = s.getV k :=
  h .V hV k

theorem accessBlock_getV {s t u : State} {n : Nat} {k : Reg} (hst : t.getV k = s.getV k)
    (hu : s.accessBlock n t = .next u) : u.getV k = s.getV k := by
  obtain ⟨-, rfl⟩ | rfl := accessBlock_eq_next hu
  · exact hst
  · exact getV_raise s k _ _

theorem exec_ldVxK_getV {x k : Reg} {s t : State} (h : exec (.ldVxK x) s = .next t) (hk : k ≠ x) :
    t.getV k = s.getV k := by
  obtain rfl | ⟨j, rfl⟩ := exec_ldVxK_cases h
  · exact getV_hold s k
  · rw [getV_advance, getV_setV, if_neg hk]

/-- An instruction writes no register but those of its row (42_load_alu.md R153). -/
theorem exec_getV {i : Instr} {s t : State} (h : exec i s = .next t) {k : Reg} (hk : writesReg i k = false) :
    t.getV k = s.getV k := by
  cases i with
  | cls | jp | jpV0 | ldI | addI | ldF | ldDTVx | ldSTVx =>
    cases h
    rfl
  | seImm | sneImm | seReg | sneReg =>
    cases h
    exact getV_skipIf s k _
  | ldImm | addImm | ldReg | orReg | andReg | xorReg | rnd | ldVxDT =>
    cases h
    rw [getV_advance, getV_setV, if_neg (beq_eq_false_iff_ne.mp hk)]
  | addReg | sub | subn =>
    cases h
    obtain ⟨hx, hf⟩ := Bool.or_eq_false_iff.mp hk
    rw [getV_advance, getV_setFlag, if_neg (beq_eq_false_iff_ne.mp hf), getV_setV,
      if_neg (beq_eq_false_iff_ne.mp hx)]
  | shr | shl =>
    cases h
    obtain ⟨hxy, hf⟩ := Bool.or_eq_false_iff.mp hk
    obtain ⟨hx, hy⟩ := Bool.or_eq_false_iff.mp hxy
    rw [getV_advance, getV_setFlag, if_neg (beq_eq_false_iff_ne.mp hf), getV_setV,
      if_neg (beq_eq_false_iff_ne.mp hx), getV_setV, if_neg (beq_eq_false_iff_ne.mp hy)]
  | ret => exact getV_of_sameBut (exec_ret_sameBut h) (by simp) k
  | call => exact getV_of_sameBut (exec_call_sameBut h) (by simp) k
  | skp => exact getV_of_sameBut (skipOnKey_sameBut (fun down => down) h) (by simp) k
  | sknp => exact getV_of_sameBut (skipOnKey_sameBut (fun down => !down) h) (by simp) k
  | ldVxK => exact exec_ldVxK_getV h (beq_eq_false_iff_ne.mp hk)
  | drw =>
    refine accessBlock_getV ?_ h
    rw [getV_advance, getV_draw, if_neg (beq_eq_false_iff_ne.mp hk)]
  | ldB | storeRegs =>
    refine accessBlock_getV ?_ h
    rfl
  | loadRegs => cases hk

/-! ### Memory -/

/-- The bytes an instruction stores from `I` on (20_memory.md R67). -/
def storedBytes (i : Instr) (s : State) : List Byte :=
  match i with
  | .ldB x => decimalDigits (s.getV x)
  | .storeRegs _ => s.allV
  | _ => []

theorem writesByte_iff (i : Instr) (s : State) (a : Nat) :
    writesByte i s a = true ↔ s.I.toNat ≤ a ∧ a < s.I.toNat + (storedBytes i s).length := by
  cases i with
  | ldB x => exact (Bool.and_eq_true_iff).trans (and_congr decide_eq_true_iff decide_eq_true_iff)
  | storeRegs x =>
    have hlen : (storedBytes (.storeRegs x) s).length = 16 := allV_length s
    rw [hlen]
    exact (Bool.and_eq_true_iff).trans (and_congr decide_eq_true_iff decide_eq_true_iff)
  | _ => exact iff_of_false Bool.false_ne_true fun ⟨hle, hlt⟩ => absurd hlt (Nat.not_lt.mpr hle)

/-- Memory is as it was, or the instruction's bytes are stored in a block that exists. -/
theorem exec_mem {i : Instr} {s t : State} (h : exec i s = .next t) :
    t.mem = s.mem ∨
      s.I.toNat + (storedBytes i s).length ≤ 4096 ∧ t.mem = s.mem.writeBytes s.I.toNat (storedBytes i s) := by
  cases i with
  | ldB x =>
    obtain ⟨hb, rfl⟩ | rfl := accessBlock_eq_next ((exec_ldB x s).symm.trans h)
    · exact .inr ⟨hb.resolve_left (by decide), rfl⟩
    · exact .inl rfl
  | storeRegs x =>
    obtain ⟨hb, rfl⟩ | rfl := accessBlock_eq_next ((exec_storeRegs x s).symm.trans h)
    · refine .inr ⟨?_, rfl⟩
      rw [show (storedBytes (.storeRegs x) s).length = 16 from allV_length s]
      exact hb.resolve_left (by decide)
    · exact .inl rfl
  | drw x y n =>
    obtain ⟨-, rfl⟩ | rfl := accessBlock_eq_next ((exec_drw x y n s).symm.trans h)
    · exact .inl rfl
    · exact .inl rfl
  | loadRegs x =>
    obtain ⟨-, rfl⟩ | rfl := accessBlock_eq_next ((exec_loadRegs x s).symm.trans h)
    · exact .inl rfl
    · exact .inl rfl
  | ret =>
    obtain rfl | ⟨hpos, rfl⟩ := exec_ret_cases h
    · exact .inl rfl
    · exact .inl rfl
  | call =>
    obtain rfl | ⟨hroom, rfl⟩ := exec_call_cases h
    · exact .inl rfl
    · exact .inl rfl
  | ldVxK =>
    obtain rfl | ⟨k, rfl⟩ := exec_ldVxK_cases h
    · exact .inl rfl
    · exact .inl rfl
  | skp x =>
    obtain rfl | ⟨c, rfl⟩ := skipOnKey_eq_next ((exec_skp x s).symm.trans h)
    · exact .inl rfl
    · exact .inl (skipIf_mem s c)
  | sknp x =>
    obtain rfl | ⟨c, rfl⟩ := skipOnKey_eq_next ((exec_sknp x s).symm.trans h)
    · exact .inl rfl
    · exact .inl (skipIf_mem s c)
  | seImm | sneImm | seReg | sneReg =>
    cases h
    exact .inl (skipIf_mem s _)
  | _ =>
    cases h
    exact .inl rfl

/-- An instruction writes no byte but those of its row (20_memory.md R67). -/
theorem exec_byteAt {i : Instr} {s t : State} (hwf : s.mem.wf = true) (h : exec i s = .next t) {a : Nat}
    (ha : writesByte i s a = false) : t.mem.byteAt a = s.mem.byteAt a := by
  obtain hmem | ⟨hblock, hmem⟩ := exec_mem h
  · rw [hmem]
  · have hout : ¬ (s.I.toNat ≤ a ∧ a < s.I.toNat + (storedBytes i s).length) := by
      rw [← writesByte_iff, ha]
      exact Bool.false_ne_true
    rw [hmem, byteAt_writeBytes s.mem hwf _ _ hblock, if_neg hout]

/-- An instruction keeps memory in its canonical form. -/
theorem exec_wf {i : Instr} {s t : State} (hwf : s.mem.wf = true) (h : exec i s = .next t) : t.mem.wf = true := by
  obtain hmem | ⟨hblock, hmem⟩ := exec_mem h
  · rw [hmem, hwf]
  · rw [hmem]
    exact wf_writeBytes s.mem hwf _ _ hblock

/-- Settles O51: the parts, the registers and the bytes of an instruction's row, each by its own lemma. -/
theorem instructionsWriteOnlyTheirTableRow : Obligations.InstructionsWriteOnlyTheirTableRow := by
  intro i s t hwf h
  refine ⟨fun p hp hV hmem => exec_sameBut h p ?_, fun k => exec_getV h, fun a => exec_byteAt hwf h⟩
  simp [hp, hV, hmem]

end Sys2Proof.Machine
end

section
/-!
PROOF. Steps (10_state.md R35; O6 to O12, O14, O15): what a step answers on each of its four ways, what its end counts,
and what it leaves unchanged.
-/
namespace Sys2Proof

theorem toNat_ofBytes (hi lo : Byte) : (Word.ofBytes hi lo).toNat = 256 * hi.toNat + lo.toNat := by
  have hlo : lo.toNat < 2 ^ 8 := lo.isLt
  have happ : (Word.ofBytes hi lo).toNat = hi.toNat <<< 8 ||| lo.toNat := BitVec.toNat_append hi lo
  rw [happ, ← Nat.shiftLeft_add_eq_or_of_lt hlo, Nat.shiftLeft_eq, Nat.mul_comm]

theorem byte_eq_one_iff (b : Byte) : b = 1 ↔ b.toNat = 1 := BitVec.toNat_inj.symm

namespace Machine

/-! ### The four ways of a step -/

theorem step_of_faulted {s : State} (hs : s.fault ≠ .none) : step s = .next s.clearOutputs.nextInputs :=
  if_neg hs

theorem step_of_fetch_none {s : State} (hs : s.fault = .none) (hpc : s.pc.toNat > 4094) :
    step s = .next (s.clearOutputs.raiseAtPc .fetchOutOfRange).nextInputs := by
  rw [step, State.stepWith, if_pos hs, State.runCycle, fetchWord_clearOutputs, (fetchWord_none s).mpr hpc]
  simp only [finishStep, finish_stopped (s.clearOutputs.raiseAtPc .fetchOutOfRange) (.inl nofun)]

theorem step_of_decode_error {s : State} {w : Word} {r : Reject} (hs : s.fault = .none)
    (hw : s.fetchWord = some w) (hr : decode w = .error r) :
    step s = .next (s.clearOutputs.loadOpcode w).execUnknown.countCycle.timerTick.nextInputs := by
  rw [step, State.stepWith, if_pos hs, State.runCycle, fetchWord_clearOutputs, hw]
  simp only [State.execWord, hr, finishStep]
  rw [finish_completed (s.clearOutputs.loadOpcode w).execUnknown hs rfl]

theorem step_of_decode_ok {s : State} {w : Word} {i : Instr} (hs : s.fault = .none)
    (hw : s.fetchWord = some w) (hi : decode w = .ok i) :
    step s = finishStep (exec i (s.clearOutputs.loadOpcode w)) := by
  rw [step, State.stepWith, if_pos hs, State.runCycle, fetchWord_clearOutputs, hw]
  simp only [State.execWord, hi]

theorem step_of_exec {s u : State} {w : Word} {i : Instr} (hs : s.fault = .none) (hw : s.fetchWord = some w)
    (hi : decode w = .ok i) (hu : exec i (s.clearOutputs.loadOpcode w) = .next u) :
    step s = .next u.finish.nextInputs := by
  rw [step_of_decode_ok hs hw hi, hu, finishStep]

theorem step_answers (s : State) : ∃ t, step s = .next t := by
  by_cases hs : s.fault = .none
  · cases hw : s.fetchWord with
    | none => exact ⟨_, step_of_fetch_none hs ((fetchWord_none s).mp hw)⟩
    | some w =>
      cases hd : decode w with
      | error r => exact ⟨_, step_of_decode_error hs hw hd⟩
      | ok i =>
        obtain ⟨u, hu, -⟩ := exec_obeysFaultTable i (s.clearOutputs.loadOpcode w)
        exact ⟨_, step_of_exec hs hw hd hu⟩
  · exact ⟨_, step_of_faulted hs⟩

/-- Settles O8: each way of a step answers a next state, since every instruction does. -/
theorem everyStepAnswersANextState : Obligations.EveryStepAnswersANextState := step_answers

/-- Settles O6: the word at `pc` is determined by its number, so it is the one the step fetches. -/
theorem stepRunsDecodedInstruction : Obligations.StepRunsDecodedInstruction := by
  intro s w i hs hpc hword hi
  have hw : Word.ofBytes (s.mem.byteAt s.pc.toNat) (s.mem.byteAt (s.pc.toNat + 1)) = w := by
    apply BitVec.eq_of_toNat_eq
    rw [toNat_ofBytes, hword]
  exact step_of_decode_ok hs ((fetchWord_eq s hpc).trans (congrArg some hw)) hi

/-! ### Frames of what surrounds the instruction (00_scope.md R11) -/

theorem sameBut_clearOutputs (s : State) : SameBut [.beep, .keyWait, .warn] s s.clearOutputs := by
  intro p hp
  cases p with
  | beep => simp at hp
  | keyWait => simp at hp
  | warn => simp at hp
  | V => exact getV_clearOutputs s
  | mem => exact fun a => congrArg (·.byteAt a) (clearOutputs_mem s)
  | _ => rfl

theorem sameBut_loadOpcode (s : State) (w : Word) : SameBut [.opcode] s (s.loadOpcode w) := by
  intro p hp
  cases p with
  | opcode => simp at hp
  | V => exact fun k => getV_loadOpcode s k w
  | mem => exact fun a => congrArg (·.byteAt a) (loadOpcode_mem s w)
  | _ => rfl

theorem sameBut_execUnknown (s : State) : SameBut [.pc, .warn] s s.execUnknown := by
  intro p hp
  cases p with
  | pc => simp at hp
  | warn => simp at hp
  | V => exact getV_execUnknown s
  | mem => exact fun a => congrArg (·.byteAt a) (execUnknown_mem s)
  | _ => rfl

theorem sameBut_countCycle_timerTick (s : State) :
    SameBut [.cycles, .dt, .st, .beep] s s.countCycle.timerTick := by
  intro p hp
  cases p with
  | cycles => simp at hp
  | dt => simp at hp
  | st => simp at hp
  | beep => simp at hp
  | V => exact getV_countCycle s
  | mem => exact fun a => congrArg (·.byteAt a) (countCycle_mem s)
  | _ => rfl

theorem sameBut_nextInputs (s : State) : SameBut [.host] s s.nextInputs := by
  intro p hp
  cases p with
  | host => simp at hp
  | V => exact getV_nextInputs s
  | mem => exact fun a => congrArg (·.byteAt a) (nextInputs_mem s)
  | _ => rfl

/-- What comes before the instruction writes the outputs and `opcode`. -/
theorem sameBut_clearOutputs_loadOpcode (s : State) (w : Word) :
    SameBut [.beep, .keyWait, .warn, .opcode] s (s.clearOutputs.loadOpcode w) :=
  (sameBut_clearOutputs s).trans (sameBut_loadOpcode s.clearOutputs w)

/-! ### The end of a step (10_state.md R35 parts 4 and 5) -/

@[simp] theorem finish_fault (s : State) : s.finish.fault = s.fault := by
  unfold State.finish
  split <;> rfl

@[simp] theorem finish_keyWait (s : State) : s.finish.keyWait = s.keyWait := by
  unfold State.finish
  split <;> rfl

/-- The step completed: it neither faulted nor held. -/
def State.Completed (s : State) : Prop := s.fault = .none ∧ s.keyWait = false

theorem finish_of_completed {u : State} (h : u.Completed) : u.finish = u.countCycle.timerTick :=
  finish_completed u h.1 h.2

theorem finish_of_not_completed {u : State} (h : ¬ u.Completed) : u.finish = u := if_neg h

theorem timerTick_beep_iff_toNat (u : State) :
    u.timerTick.beep = true ↔ u.beep = true ∨ u.st.toNat = 1 := by
  rw [timerTick_beep_iff, byte_eq_one_iff]

/-- Settles O7: a completed instruction is followed by the count and the tick, a stopped one by nothing, and both by
the next inputs. -/
theorem endOfStepCountsAndTicks : Obligations.EndOfStepCountsAndTicks := by
  intro u
  have hhost : u.finish.host = u.host := by
    obtain ⟨-, -, -, -, -, -, -, -, -, -, -, -, -, hhost⟩ := finish_frame u
    exact hhost
  refine ⟨u.finish.nextInputs, rfl, ?_, rfl, ?_, fun hdone => ?_, fun hstop => ?_⟩
  · rw [nextInputs_host, hhost]
  · rw [nextInputs_host, hhost]
  · rw [finish_of_completed hdone]
    exact ⟨rfl, tickDown_toNat u.dt, tickDown_toNat u.st, timerTick_beep_iff_toNat u.countCycle,
      (sameBut_countCycle_timerTick u).trans (sameBut_nextInputs _)⟩
  · rw [finish_of_not_completed hstop]
    exact sameBut_nextInputs u

/-! ### What no instruction writes, and what only the timer loads write (10_state.md R40) -/

section
variable {i : Instr} {s t : State} (h : exec i s = .next t)
include h

theorem exec_opcode : t.opcode = s.opcode :=
  exec_sameBut h .opcode (by cases i <;> simp [writtenParts])

theorem exec_cycles : t.cycles = s.cycles :=
  exec_sameBut h .cycles (by cases i <;> simp [writtenParts])

theorem exec_beep : t.beep = s.beep :=
  exec_sameBut h .beep (by cases i <;> simp [writtenParts])

theorem exec_warn : t.warn = s.warn :=
  exec_sameBut h .warn (by cases i <;> simp [writtenParts])

theorem exec_dt (hi : ∀ x, i ≠ .ldDTVx x) : t.dt = s.dt := by
  refine exec_sameBut h .dt ?_
  cases i with
  | ldDTVx x => exact absurd rfl (hi x)
  | _ => simp [writtenParts]

theorem exec_st (hi : ∀ x, i ≠ .ldSTVx x) : t.st = s.st := by
  refine exec_sameBut h .st ?_
  cases i with
  | ldSTVx x => exact absurd rfl (hi x)
  | _ => simp [writtenParts]

/-- The two instructions that load a timer complete, so one that stops the step writes neither timer. -/
theorem exec_timers_of_not_completed (hs : s.Completed) (hstop : ¬ t.Completed) : t.dt = s.dt ∧ t.st = s.st := by
  refine ⟨exec_dt h ?_, exec_st h ?_⟩
  · rintro x rfl
    cases h
    exact hstop hs
  · rintro x rfl
    cases h
    exact hstop hs

end

/-! ### Counting completed steps (60_exceptions.md R212, R213) -/

/-- `t` ends a step that began with the timers and `cycles` of `s`: a completed one counted a cycle and took one off a
timer that its instruction did not load, a stopped one counted nothing. -/
def CountsStep (s t : State) (loadsDt loadsSt : Prop) : Prop :=
  (t.Completed → t.cycles = s.cycles + 1 ∧ (¬ loadsDt → t.dt.toNat = s.dt.toNat - 1) ∧
    (¬ loadsSt → t.st.toNat = s.st.toNat - 1 ∧ (t.beep = true ↔ s.st.toNat = 1))) ∧
  (¬ t.Completed → t.cycles = s.cycles ∧ t.dt = s.dt ∧ t.st = s.st ∧ t.beep = false)

theorem countsStep_finish {s u : State} {loadsDt loadsSt : Prop} (hcycles : u.cycles = s.cycles)
    (hbeep : u.beep = false) (hdt : ¬ loadsDt → u.dt = s.dt) (hst : ¬ loadsSt → u.st = s.st)
    (hstop : ¬ u.Completed → u.dt = s.dt ∧ u.st = s.st) :
    CountsStep s u.finish.nextInputs loadsDt loadsSt := by
  have hdone : u.finish.nextInputs.Completed ↔ u.Completed := by simp [State.Completed]
  constructor
  · intro h
    rw [finish_of_completed (hdone.mp h)]
    refine ⟨congrArg (· + 1) hcycles, fun hl => ?_, fun hl => ⟨?_, ?_⟩⟩
    · rw [← hdt hl]
      exact tickDown_toNat u.dt
    · rw [← hst hl]
      exact tickDown_toNat u.st
    · rw [← hst hl, nextInputs_beep, timerTick_beep_iff_toNat, countCycle_beep, hbeep]
      exact or_iff_right Bool.false_ne_true
  · intro h
    have hu : ¬ u.Completed := mt hdone.mpr h
    rw [finish_of_not_completed hu]
    exact ⟨hcycles, (hstop hu).1, (hstop hu).2, hbeep⟩

/-- Settles O9: what runs before the end of a step writes no timer but by the two loads, which complete. -/
theorem timersCountCompletedSteps : Obligations.TimersCountCompletedSteps := by
  intro s t hs h
  suffices hcount : CountsStep s t (∃ x, decode t.opcode = .ok (.ldDTVx x)) (∃ x, decode t.opcode = .ok (.ldSTVx x)) by
    simpa only [CountsStep, State.Completed, not_exists] using hcount
  obtain ⟨hf, -⟩ | ⟨-, -, rfl⟩ | ⟨-, w, r, -, -, rfl⟩ | ⟨-, w, i, u, hw, hi, hu, rfl⟩ := step_cases h
  · exact absurd hs hf
  · exact ⟨fun hdone => (nomatch hdone.1), fun _ => ⟨rfl, rfl, rfl, rfl⟩⟩
  · exact countsStep_finish rfl rfl (fun _ => rfl) (fun _ => rfl) fun _ => ⟨rfl, rfl⟩
  · have hop : u.finish.nextInputs.opcode = w := by
      obtain ⟨-, -, -, hop, -⟩ := finish_frame u
      exact hop.trans (exec_opcode hu)
    have hcycles := exec_cycles hu
    have hdt := exec_dt hu
    have hst := exec_st hu
    have htimers := exec_timers_of_not_completed hu ⟨hs, rfl⟩
    rw [hop, hi]
    refine countsStep_finish hcycles (exec_beep hu) (fun hl => hdt fun x hx => hl ⟨x, ?_⟩)
      (fun hl => hst fun x hx => hl ⟨x, ?_⟩) htimers
    · rw [hx]
    · rw [hx]

/-! ### UNKNOWN words (30_encoding.md R95) -/

/-- Settles O10: an ill-formed word is one the decoder rejects, and its step is the no-op with `warn`. -/
theorem unknownWordIsANoOpWithWarning : Obligations.UnknownWordIsANoOpWithWarning := by
  intro s w hs hw hill
  obtain ⟨r, hr⟩ := (decode_error_iff_not_wordWellFormed w).mpr hill
  refine ⟨_, step_of_decode_error hs hw hr, rfl, rfl, rfl, rfl, rfl, tickDown_toNat s.dt, tickDown_toNat s.st, ?_, ?_⟩
  · rw [nextInputs_beep, timerTick_beep_iff_toNat]
    exact or_iff_right Bool.false_ne_true
  · exact ((((sameBut_clearOutputs_loadOpcode s w).trans (sameBut_execUnknown _)).trans
      (sameBut_countCycle_timerTick _)).trans (sameBut_nextInputs _)).mono (by simp)

theorem finish_warn (s : State) : s.finish.warn = s.warn := by
  unfold State.finish
  split <;> rfl

/-- Settles O11: of the four ways of a step only the UNKNOWN word's sets `warn`, for no instruction writes it. -/
theorem warnMarksExactlyTheUnknownSteps : Obligations.WarnMarksExactlyTheUnknownSteps := by
  intro s t h
  obtain ⟨hf, rfl⟩ | ⟨-, hpc, rfl⟩ | ⟨hs, w, r, hw, hr, rfl⟩ | ⟨-, w, i, u, hw, hi, hu, rfl⟩ := step_cases h
  · exact iff_of_false Bool.false_ne_true fun hunk => hf hunk.1
  · refine iff_of_false Bool.false_ne_true ?_
    rintro ⟨-, w, hw, -⟩
    rw [(fetchWord_none s).mpr hpc] at hw
    cases hw
  · refine iff_of_true ?_ ⟨hs, w, hw, (decode_error_iff_not_wordWellFormed w).mp ⟨r, hr⟩⟩
    rw [nextInputs_warn, finish_warn, execUnknown_warn]
  · refine iff_of_false ?_ ?_
    · rw [nextInputs_warn, finish_warn, exec_warn hu]
      exact Bool.false_ne_true
    · rintro ⟨-, v, hv, hill⟩
      obtain rfl : w = v := Option.some.inj (hw.symm.trans hv)
      rw [(decode_ok_iff_wordWellFormed w).mp ⟨i, hi⟩] at hill
      cases hill

/-! ### Steps that fault (60_exceptions.md R203, R207, R208) -/

/-- Settles O12: a fetch beyond 4094 raises its fault with `pc`. -/
theorem fetchBeyondMemoryLatchesTheFault : Obligations.FetchBeyondMemoryLatchesTheFault := by
  intro s hs hpc
  refine ⟨_, step_of_fetch_none hs hpc, rfl, rfl, toNat_setWidth_pc s, rfl, rfl, rfl, ?_⟩
  exact (((sameBut_clearOutputs s).trans (sameBut_raise _ _ _)).trans (sameBut_nextInputs _)).mono (by simp)

/-- Settles O14: with the fetch done and a fault latched, the instruction has met its row of the fault table, and what
surrounds it writes the outputs, `opcode` and the host's side. -/
theorem faultingStepIsPrecise : Obligations.FaultingStepIsPrecise := by
  intro s t w hs hw h hfault
  obtain ⟨hf, -⟩ | ⟨-, hpc, -⟩ | ⟨-, v, r, -, -, rfl⟩ | ⟨-, v, i, u, hv, hi, hu, rfl⟩ := step_cases h
  · exact absurd hs hf
  · rw [(fetchWord_none s).mpr hpc] at hw
    cases hw
  · rw [nextInputs_fault, finish_fault] at hfault
    exact absurd hs hfault
  · obtain rfl : v = w := Option.some.inj (hv.symm.trans hw)
    rw [nextInputs_fault, finish_fault] at hfault
    obtain ⟨hsame, -, -⟩ | ⟨-, hsame⟩ := obeysFaultTable_of_exec hu
    · exact absurd (hsame.trans hs) hfault
    · rw [finish_stopped u (.inl hfault)]
      refine ⟨hsame .opcode (by simp), hsame .pc (by simp), hsame .cycles (by simp), hsame .beep (by simp),
        hsame .keyWait (by simp), hsame .warn (by simp), ?_⟩
      exact (((sameBut_clearOutputs_loadOpcode s v).trans hsame).trans (sameBut_nextInputs u)).mono (by simp)

/-- The outputs of the last step are 0. -/
def State.OutputsOff (s : State) : Prop := s.beep = false ∧ s.keyWait = false ∧ s.warn = false

theorem run_succ_of_step (n : Nat) {s u : State} (h : step s = .next u) :
    Host.Core.run Sys2Proof.core (n + 1) s = Host.Core.run Sys2Proof.core n u := by
  have hcore : Sys2Proof.core.step s = .next u := h
  simp only [Host.Core.run, hcore]

/-- One step of a halted machine changes the outputs and the host's side alone, so any number of steps does. -/
theorem run_of_faulted (n : Nat) (s : State) (hs : s.fault ≠ .none) :
    ∃ t, Host.Core.run Sys2Proof.core n s = .next t ∧ SameBut [.beep, .keyWait, .warn, .host] s t ∧
      (0 < n ∨ s.OutputsOff → t.OutputsOff) := by
  induction n generalizing s with
  | zero => exact ⟨s, rfl, sameBut_of_eq rfl _, fun h => h.resolve_left (Nat.lt_irrefl 0)⟩
  | succ n ih =>
    obtain ⟨t, ht, hsame, hoff⟩ := ih s.clearOutputs.nextInputs hs
    refine ⟨t, (run_succ_of_step n (step_of_faulted hs)).trans ht, ?_, fun _ => hoff (.inr ⟨rfl, rfl, rfl⟩)⟩
    exact (((sameBut_clearOutputs s).trans (sameBut_nextInputs _)).trans hsame).mono (by simp)

/-- Settles O15: by induction on the number of steps. -/
theorem faultedMachineStaysHalted : Obligations.FaultedMachineStaysHalted := by
  intro s n hs
  obtain ⟨t, ht, hsame, hoff⟩ := run_of_faulted n s hs
  exact ⟨t, ht, hsame, fun hn => hoff (.inl hn)⟩

end Machine
end Sys2Proof
end

section
/-!
PROOF. The machine's invariant (10_state.md R39, R23; 60_exceptions.md R200, R209; O55 to O58): each of its four parts
is kept by an instruction for a reason of its own, and by the end of a step.
-/
namespace Sys2Proof.Machine

/-! ### The program counter and the return addresses (10_state.md R23) -/

theorem toNat_add_two {pc : Word} (h : pc.toNat ≤ 4094) : (pc + 2).toNat = pc.toNat + 2 := by
  have hadd : (pc + 2).toNat = (pc.toNat + 2) % 65536 := BitVec.toNat_add pc 2
  omega

theorem toNat_add_four {pc : Word} (h : pc.toNat ≤ 4094) : (pc + 4).toNat = pc.toNat + 4 := by
  have hadd : (pc + 4).toNat = (pc.toNat + 4) % 65536 := BitVec.toNat_add pc 4
  omega

section
variable {s : State} (hpc : s.pc.toNat ≤ 4094)
include hpc

theorem toNat_advance_pc_le : s.advance.pc.toNat ≤ 4350 := by
  rw [advance_pc, toNat_add_two hpc]
  omega

theorem toNat_skipIf_pc_le (c : Bool) : (s.skipIf c).pc.toNat ≤ 4350 := by
  cases c with
  | false => exact toNat_advance_pc_le hpc
  | true =>
    show (s.pc + 4).toNat ≤ 4350
    rw [toNat_add_four hpc]
    omega

theorem accessBlock_pc_le {t u : State} {n : Nat} (ht : t.pc.toNat ≤ 4350) (hu : s.accessBlock n t = .next u) :
    u.pc.toNat ≤ 4350 := by
  obtain ⟨-, rfl⟩ | rfl := accessBlock_eq_next hu
  · exact ht
  · exact Nat.le_trans hpc (by decide)

theorem skipOnKey_pc_le {u : State} {x : Reg} {g : Bool → Bool} (hu : s.skipOnKey x g = .next u) :
    u.pc.toNat ≤ 4350 := by
  obtain rfl | ⟨c, rfl⟩ := skipOnKey_eq_next hu
  · exact Nat.le_trans hpc (by decide)
  · exact toNat_skipIf_pc_le hpc c

/-- From a fetchable address an instruction goes on to the next or the one after it, jumps to a 12-bit address plus at
most a byte, or returns to a stacked one. -/
theorem exec_pc_le {i : Instr} {t : State} (hslots : ∀ k : Fin 16, (s.stack[k.val]).toNat ≤ 4096)
    (h : exec i s = .next t) : t.pc.toNat ≤ 4350 := by
  cases i with
  | jp nnn =>
    cases h
    have hn : nnn.toNat < 4096 := nnn.isLt
    rw [jump_pc, toNat_addrWord]
    omega
  | jpV0 nnn =>
    cases h
    have hn : nnn.toNat < 4096 := nnn.isLt
    have hv : (s.getV 0).toNat < 256 := (s.getV 0).isLt
    rw [jump_pc, BitVec.toNat_add, toNat_toWord, toNat_addrWord]
    omega
  | call nnn =>
    have hn : nnn.toNat < 4096 := nnn.isLt
    obtain rfl | ⟨hroom, rfl⟩ := exec_call_cases h
    · exact Nat.le_trans hpc (by decide)
    · rw [jump_pc, toNat_addrWord]
      omega
  | ret =>
    obtain rfl | ⟨hpos, rfl⟩ := exec_ret_cases h
    · exact Nat.le_trans hpc (by decide)
    · exact Nat.le_trans (hslots ⟨s.sp.val - 1, by omega⟩) (by decide)
  | seImm | sneImm | seReg | sneReg =>
    cases h
    exact toNat_skipIf_pc_le hpc _
  | skp x => exact skipOnKey_pc_le hpc ((exec_skp x s).symm.trans h)
  | sknp x => exact skipOnKey_pc_le hpc ((exec_sknp x s).symm.trans h)
  | ldVxK =>
    obtain rfl | ⟨k, rfl⟩ := exec_ldVxK_cases h
    · exact Nat.le_trans hpc (by decide)
    · exact toNat_advance_pc_le hpc
  | drw | ldB | storeRegs | loadRegs =>
    refine accessBlock_pc_le hpc ?_ h
    exact toNat_advance_pc_le hpc
  | _ =>
    cases h
    exact toNat_advance_pc_le hpc

/-- CALL stacks the address after itself; no other instruction writes a slot. -/
theorem exec_slots_le {i : Instr} {t : State} (hslots : ∀ k : Fin 16, (s.stack[k.val]).toNat ≤ 4096)
    (h : exec i s = .next t) (k : Fin 16) : (t.stack[k.val]).toNat ≤ 4096 := by
  by_cases hi : ∃ nnn, i = .call nnn
  · obtain ⟨nnn, rfl⟩ := hi
    obtain rfl | ⟨hroom, rfl⟩ := exec_call_cases h
    · exact hslots k
    · simp only [jump_stack, Vector.getElem_set]
      split
      · rw [toNat_add_two hpc]
        omega
      · exact hslots k
  · have hstack : t.stack = s.stack := by
      refine exec_sameBut h .stack ?_
      cases i with
      | call nnn => exact absurd ⟨nnn, rfl⟩ hi
      | _ => simp [writtenParts]
    simp only [hstack]
    exact hslots k

end

/-! ### The fault record (60_exceptions.md R200) -/

theorem blockBytes_le (i : Instr) : blockBytes i ≤ 16 := by
  cases i with
  | drw x y n => exact Nat.le_of_lt n.isLt
  | _ => simp [blockBytes]

theorem last_of_absent {s : State} {n : Nat} (hn : n ≤ 16) (habsent : ¬ s.BlockExists n) :
    s.I.toNat + 15 > 4095 := by
  unfold State.BlockExists at habsent
  omega

theorem faultRecordOk_of_none {s : State} (hf : s.fault = .none) (hinfo : s.faultInfo = 0) : s.FaultRecordOk := by
  unfold State.FaultRecordOk
  rw [hf]
  exact hinfo

/-- Without a fault the record holds 0. -/
theorem faultInfo_of_faultRecordOk {s : State} (h : s.FaultRecordOk) (hf : s.fault = .none) : s.faultInfo = 0 := by
  unfold State.FaultRecordOk at h
  rw [hf] at h
  exact h

/-- A row of the fault table is true of the state it halted, which differs from the state before in the fault register
alone. -/
theorem faultRecordOk_of_faultsWith {i : Instr} {s t : State} (hrow : FaultsWith i s t.fault t.faultInfo.toNat)
    (hsame : SameBut [.fault, .faultInfo] s t) : t.FaultRecordOk := by
  have hsp : t.sp = s.sp := hsame .sp (by simp)
  have hpc : t.pc = s.pc := hsame .pc (by simp)
  have hI : t.I = s.I := hsame .I (by simp)
  have hatPc (h : t.faultInfo.toNat = s.pc.toNat) : t.faultInfo = t.pc.setWidth 17 := by
    apply BitVec.eq_of_toNat_eq
    rw [h, toNat_setWidth_pc, hpc]
  unfold State.FaultRecordOk
  cases i with
  | call =>
    obtain ⟨hfull, hf, hinfo⟩ := hrow
    rw [hf, hsp]
    exact ⟨hfull, hatPc hinfo⟩
  | ret =>
    obtain ⟨hempty, hf, hinfo⟩ := hrow
    rw [hf, hsp]
    exact ⟨hempty, hatPc hinfo⟩
  | skp x | sknp x =>
    obtain ⟨habove, hf, hinfo⟩ := hrow
    have hv : (s.getV x).toNat < 256 := (s.getV x).isLt
    rw [hf, hinfo]
    exact ⟨habove, Nat.le_of_lt_succ hv⟩
  | drw | ldB | storeRegs | loadRegs =>
    obtain ⟨habsent, hf, hinfo⟩ := hrow
    rw [hf, hinfo, hI]
    exact ⟨last_of_absent (blockBytes_le _) habsent, rfl⟩
  | _ => exact hrow.elim

theorem exec_faultRecordOk {i : Instr} {s t : State} (hs : s.fault = .none) (hinfo : s.faultInfo = 0)
    (h : exec i s = .next t) : t.FaultRecordOk := by
  obtain ⟨hf, hkeep, -⟩ | ⟨hrow, hsame⟩ := obeysFaultTable_of_exec h
  · exact faultRecordOk_of_none (hf.trans hs) (hkeep.trans hinfo)
  · exact faultRecordOk_of_faultsWith hrow hsame

/-! ### The end of a step -/

/-- The tick beeps only when it takes `st` to 0 (60_exceptions.md R213). -/
theorem timerTick_st_of_beep {u : State} (hoff : u.beep = false) (h : u.timerTick.beep = true) :
    u.timerTick.st = 0 := by
  have hone : u.st.toNat = 1 :=
    ((timerTick_beep_iff_toNat u).mp h).resolve_left (by simp [hoff])
  apply BitVec.eq_of_toNat_eq
  rw [timerTick_st, tickDown_toNat, hone]
  rfl

theorem outputsOk_finish {u : State} (hbeep : u.beep = false)
    (hfault : u.fault ≠ .none → u.keyWait = false ∧ u.warn = false) (hwait : u.keyWait = true → u.warn = false) :
    u.finish.OutputsOk := by
  by_cases hdone : u.Completed
  · rw [finish_of_completed hdone]
    obtain ⟨hnone, hgo⟩ := hdone
    exact ⟨fun hf => absurd hnone hf, fun hk => absurd (hgo.symm.trans hk) Bool.false_ne_true,
      timerTick_st_of_beep (u := u.countCycle) hbeep⟩
  · rw [finish_of_not_completed hdone]
    exact ⟨fun hf => ⟨hbeep, hfault hf⟩, fun hk => ⟨hbeep, hwait hk⟩,
      fun hb => absurd (hbeep.symm.trans hb) Bool.false_ne_true⟩

/-- The end of a step writes nothing that the other three parts speak of. -/
theorem inv_finish_nextInputs {u : State} (hmem : u.mem.wf = true) (hrec : u.FaultRecordOk)
    (hout : u.finish.OutputsOk) (hpc : u.PcBounded) : u.finish.nextInputs.Inv := by
  by_cases hdone : u.Completed
  · rw [finish_of_completed hdone] at hout ⊢
    exact ⟨hmem, hrec, hout, hpc⟩
  · rw [finish_of_not_completed hdone] at hout ⊢
    exact ⟨hmem, hrec, hout, hpc⟩

/-! ### Steps -/

theorem inv_clearOutputs_loadOpcode {s : State} (hs : s.Inv) (w : Word) : (s.clearOutputs.loadOpcode w).Inv := by
  obtain ⟨hmem, hrec, -, hbound⟩ := hs
  exact ⟨hmem, hrec, ⟨fun _ => ⟨rfl, rfl, rfl⟩, nofun, nofun⟩, hbound⟩

section
variable {s : State} (hs : s.Inv) (hoff : s.OutputsOff) (hf : s.fault = .none) (hpc : s.pc.toNat ≤ 4094)
include hs hoff hf hpc

theorem inv_of_exec {i : Instr} {u : State} (hu : exec i s = .next u) : u.finish.nextInputs.Inv := by
  obtain ⟨hmem, hrec, -, -, hslots⟩ := hs
  obtain ⟨hbeep, hwait, hwarn⟩ := hoff
  have hwarn : u.warn = false := (exec_warn hu).trans hwarn
  refine inv_finish_nextInputs (exec_wf hmem hu)
    (exec_faultRecordOk hf (faultInfo_of_faultRecordOk hrec hf) hu) ?_
    ⟨exec_pc_le hpc hslots hu, exec_slots_le hpc hslots hu⟩
  refine outputsOk_finish ((exec_beep hu).trans hbeep) (fun hfault => ⟨?_, hwarn⟩) fun _ => hwarn
  obtain ⟨hkeep, -, -⟩ | ⟨-, hsame⟩ := obeysFaultTable_of_exec hu
  · exact absurd (hkeep.trans hf) hfault
  · exact (hsame .keyWait (by simp)).trans hwait

theorem inv_of_unknown : s.execUnknown.finish.nextInputs.Inv := by
  obtain ⟨hmem, hrec, -, -, hslots⟩ := hs
  obtain ⟨hbeep, hwait, -⟩ := hoff
  have hinfo : s.faultInfo = 0 := faultInfo_of_faultRecordOk hrec hf
  refine inv_finish_nextInputs hmem (faultRecordOk_of_none hf hinfo) ?_
    ⟨toNat_advance_pc_le hpc, hslots⟩
  exact outputsOk_finish hbeep (fun hfault => absurd hf hfault)
    fun hk => absurd (hwait.symm.trans hk) Bool.false_ne_true

end

theorem inv_of_fetch_none {s : State} (hs : s.Inv) (hpc : s.pc.toNat > 4094) :
    (s.clearOutputs.raiseAtPc .fetchOutOfRange).nextInputs.Inv := by
  obtain ⟨hmem, -, -, hbound⟩ := hs
  exact ⟨hmem, ⟨hpc, rfl⟩, ⟨fun _ => ⟨rfl, rfl, rfl⟩, nofun, nofun⟩, hbound⟩

theorem inv_of_halted {s : State} (hs : s.Inv) : s.clearOutputs.nextInputs.Inv := by
  obtain ⟨hmem, hrec, -, hbound⟩ := hs
  exact ⟨hmem, hrec, ⟨fun _ => ⟨rfl, rfl, rfl⟩, nofun, nofun⟩, hbound⟩

theorem pc_le_of_fetchWord {s : State} {w : Word} (h : s.fetchWord = some w) : s.pc.toNat ≤ 4094 := by
  refine Nat.not_lt.mp fun hpc => ?_
  rw [(fetchWord_none s).mpr hpc] at h
  cases h

theorem step_inv {s t : State} (hs : s.Inv) (h : step s = .next t) : t.Inv := by
  obtain ⟨-, rfl⟩ | ⟨-, hpc, rfl⟩ | ⟨hf, w, r, hw, -, rfl⟩ | ⟨hf, w, i, u, hw, -, hu, rfl⟩ := step_cases h
  · exact inv_of_halted hs
  · exact inv_of_fetch_none hs hpc
  · exact inv_of_unknown (inv_clearOutputs_loadOpcode hs w) ⟨rfl, rfl, rfl⟩ hf (pc_le_of_fetchWord hw)
  · exact inv_of_exec (inv_clearOutputs_loadOpcode hs w) ⟨rfl, rfl, rfl⟩ hf (pc_le_of_fetchWord hw) hu

/-- Settles O55: each of the four ways of a step keeps the invariant. -/
theorem everyStepKeepsTheMachineInvariant : Obligations.EveryStepKeepsTheMachineInvariant :=
  fun _ _ => step_inv

/-- Settles O58: the bound after the step is the invariant's, and a step that does not fault has fetched its word. -/
theorem pcNeverWrapsInARun : Obligations.PcNeverWrapsInARun := by
  intro s t hs hf h
  obtain ⟨hle, -⟩ := (step_inv hs h).pcBounded
  refine ⟨hle, fun hnone => ?_⟩
  have hpc : s.pc.toNat ≤ 4094 := by
    refine Nat.not_lt.mp fun hbeyond => ?_
    rw [step_of_fetch_none hf hbeyond] at h
    cases h
    cases hnone
  exact ⟨hpc, toNat_add_four hpc⟩

/-! ### Reset and the host's moves (70_reset_and_hazards.md R230 to R235) -/

theorem inv_resetWith (font : Vector Byte 80) : (State.resetWith font).Inv where
  mem := rfl
  faultRecord := rfl
  outputs := ⟨fun h => absurd rfl h, nofun, nofun⟩
  pcBounded := ⟨by simp [State.resetWith], fun k => by simp [State.resetWith]⟩

/-- Settles O57: with no cell listed the memory is canonical for every FONT, and every bound is one of numerals. -/
theorem resetMeetsTheMachineInvariant : Obligations.ResetMeetsTheMachineInvariant :=
  ⟨inv_resetWith, inv_resetWith defaultFont⟩

theorem loadRom_eq_ok {s t : State} {rom : List Byte} (h : s.loadRom rom = .ok t) :
    rom.length ≤ 3584 ∧
      t = { s with mem := s.mem.writeBytes 512 rom, host := { s.host with loadOpen := false } } := by
  unfold State.loadRom at h
  split at h
  case isTrue => cases h
  case isFalse =>
    split at h
    case isTrue => cases h
    case isFalse hlen => exact ⟨Nat.not_lt.mp hlen, (Except.ok.inj h).symm⟩

/-- As a move, a load that fails leaves the state (60_exceptions.md R218). -/
theorem move_loadRom_cases {s t : State} {rom : List Byte} (h : s.move (.loadRom rom) = .next t) :
    t = s ∨ s.loadRom rom = .ok t := by
  unfold State.move at h
  cases hload : s.loadRom rom with
  | ok u =>
    simp only [hload, Host.Outcome.next.injEq] at h
    exact .inr (congrArg _ h)
  | error e =>
    simp only [hload, Host.Outcome.next.injEq] at h
    exact .inl h.symm

/-- A replaced memory in canonical form is all that a load changes of what the invariant speaks of. -/
theorem loadRom_inv {s t : State} {rom : List Byte} (hs : s.Inv) (h : s.loadRom rom = .ok t) : t.Inv := by
  obtain ⟨hmem, hrec, hout, hbound⟩ := hs
  obtain ⟨hlen, rfl⟩ := loadRom_eq_ok h
  exact ⟨wf_writeBytes s.mem hmem _ _ (by omega), hrec, hout, hbound⟩

theorem move_inv {s t : State} {m : HostMove} (hs : s.Inv) (h : s.move m = .next t) : t.Inv := by
  cases m with
  | reset =>
    cases h
    obtain ⟨hmem, hrec, hout, hbound⟩ := inv_resetWith s.mem.font
    exact ⟨hmem, hrec, hout, hbound⟩
  | loadRom rom =>
    obtain rfl | hload := move_loadRom_cases h
    · exact hs
    · exact loadRom_inv hs hload
  | setKeys | supplyRand | clearDraw =>
    cases h
    obtain ⟨hmem, hrec, hout, hbound⟩ := hs
    exact ⟨hmem, hrec, hout, hbound⟩
  | step =>
    obtain ⟨u, hu, rfl⟩ := requestStep_eq_next.mp h
    obtain ⟨hmem, hrec, hout, hbound⟩ := step_inv hs hu
    exact ⟨hmem, hrec, hout, hbound⟩

/-- Settles O56: a move is a reset, a load within memory, a step, or writes nothing the invariant speaks of. -/
theorem everyHostMoveKeepsTheMachineInvariant : Obligations.EveryHostMoveKeepsTheMachineInvariant :=
  fun _ _ _ => move_inv

end Sys2Proof.Machine
end

section
/-!
PROOF. What instructions do not read (10_state.md R24, R28, R30, R32; O52, O53), states at rest (70_reset_and_hazards.md
R239; O54), and the host's reset and load (R230, R232; O59, O60).
-/
namespace Sys2Proof.Machine

/-! ### Fields that instructions do not read -/

/-- The state with other values in the fields that no instruction reads but, of the host's side, its readers. -/
def State.withUnread (s : State) (w : Word) (n : Nat) (d : Bool) (h : HostSide) : State :=
  { s with opcode := w, cycles := n, dirty := d, host := h }

/-- From the state with the other values, `r` answers `t` with them too; only `dirty` may have been written. -/
def AnswersUnread (r : Result) (s t : State) (w : Word) (n : Nat) (d : Bool) (h : HostSide) : Prop :=
  ∃ e, r = .next (t.withUnread w n e h) ∧ (d = s.dirty → e = t.dirty)

section
variable {s t : State} {w : Word} {n : Nat} {d : Bool} {h : HostSide}

theorem accessBlock_withUnread {u : State} {k : Nat} {e : Bool} (he : d = s.dirty → e = t.dirty)
    (hu : s.accessBlock k t = .next u) :
    AnswersUnread ((s.withUnread w n d h).accessBlock k (t.withUnread w n e h)) s u w n d h := by
  by_cases hb : s.BlockExists k
  · rw [accessBlock_of_exists t hb] at hu
    cases hu
    exact ⟨e, accessBlock_of_exists _ hb, he⟩
  · rw [accessBlock_of_absent t hb] at hu
    cases hu
    exact ⟨d, accessBlock_of_absent _ hb, id⟩

theorem skipIf_withUnread (c : Bool) : (s.withUnread w n d h).skipIf c = (s.skipIf c).withUnread w n d h := by
  cases c with
  | false => rfl
  | true => rfl

theorem skipIf_answersUnread (c : Bool) :
    AnswersUnread (.next ((s.withUnread w n d h).skipIf c)) s (s.skipIf c) w n d h :=
  ⟨d, congrArg _ (skipIf_withUnread c), fun hd => hd.trans (skipIf_dirty s c).symm⟩

theorem skipOnKey_withUnread {x : Reg} (g : Bool → Bool) (hk : h.keys = s.host.keys)
    (ht : s.skipOnKey x g = .next t) : AnswersUnread ((s.withUnread w n d h).skipOnKey x g) s t w n d h := by
  by_cases hv : (s.getV x).toNat ≤ 15
  · rw [skipOnKey_of_le g hv] at ht
    cases ht
    have hdown : (s.withUnread w n d h).keyDown (s.getV x).toNat = s.keyDown (s.getV x).toNat :=
      congrArg (·.getLsbD (s.getV x).toNat) hk
    obtain ⟨e, he, hdirty⟩ := skipIf_answersUnread (s := s) (w := w) (n := n) (d := d) (h := h)
      (g (s.keyDown (s.getV x).toNat))
    refine ⟨e, ?_, hdirty⟩
    rw [← he, ← hdown]
    exact skipOnKey_of_le g hv
  · have hv : 15 < (s.getV x).toNat := Nat.not_le.mp hv
    rw [skipOnKey_of_gt g hv] at ht
    cases ht
    exact ⟨d, skipOnKey_of_gt g hv, id⟩

theorem exec_ret_withUnread (ht : exec .ret s = .next t) :
    AnswersUnread (exec .ret (s.withUnread w n d h)) s t w n d h := by
  by_cases hsp : s.sp.val = 0
  · rw [exec_ret_of_empty s hsp] at ht
    cases ht
    exact ⟨d, exec_ret_of_empty _ hsp, id⟩
  · rw [exec_ret_of_pos s (Nat.pos_of_ne_zero hsp)] at ht
    cases ht
    exact ⟨d, exec_ret_of_pos (s.withUnread w n d h) (Nat.pos_of_ne_zero hsp), id⟩

theorem exec_call_withUnread {nnn : Addr12} (ht : exec (.call nnn) s = .next t) :
    AnswersUnread (exec (.call nnn) (s.withUnread w n d h)) s t w n d h := by
  by_cases hsp : s.sp.val = 16
  · rw [exec_call_of_full nnn s hsp] at ht
    cases ht
    exact ⟨d, exec_call_of_full nnn _ hsp, id⟩
  · have hroom : s.sp.val < 16 := by omega
    rw [exec_call_of_room nnn s hroom] at ht
    cases ht
    exact ⟨d, exec_call_of_room nnn (s.withUnread w n d h) hroom, id⟩

theorem exec_ldVxK_withUnread {x : Reg} (hk : h.keys = s.host.keys) (ht : exec (.ldVxK x) s = .next t) :
    AnswersUnread (exec (.ldVxK x) (s.withUnread w n d h)) s t w n d h := by
  have hlowest : lowestKey (s.withUnread w n d h).host.keys = lowestKey s.host.keys := congrArg lowestKey hk
  cases hkey : lowestKey s.host.keys with
  | none =>
    rw [exec_ldVxK_of_noKey x s hkey] at ht
    cases ht
    exact ⟨d, exec_ldVxK_of_noKey x _ (hlowest.trans hkey), id⟩
  | some k =>
    rw [exec_ldVxK_of_key x s hkey] at ht
    cases ht
    exact ⟨d, exec_ldVxK_of_key x _ (hlowest.trans hkey), id⟩

/-- Each operand is a register, `I`, `pc`, the stack, `dt`, a pixel, a byte of memory or the instruction's own: other
values elsewhere go through unread. CLS and DRW set `dirty` without reading it. -/
theorem exec_withUnread {i : Instr} (ht : exec i s = .next t) (hkeys : readsKeys i = true → h.keys = s.host.keys)
    (hrand : readsRand i = true → h.rand = s.host.rand) :
    AnswersUnread (exec i (s.withUnread w n d h)) s t w n d h := by
  cases i with
  | cls =>
    cases ht
    exact ⟨true, rfl, fun _ => rfl⟩
  | ret => exact exec_ret_withUnread ht
  | call => exact exec_call_withUnread ht
  | ldVxK => exact exec_ldVxK_withUnread (hkeys rfl) ht
  | skp x => exact skipOnKey_withUnread (fun down => down) (hkeys rfl) ht
  | sknp x => exact skipOnKey_withUnread (fun down => !down) (hkeys rfl) ht
  | drw x y k => exact accessBlock_withUnread (e := true) (fun _ => rfl) ((exec_drw x y k s).symm.trans ht)
  | ldB x => exact accessBlock_withUnread (e := d) (by exact id) ((exec_ldB x s).symm.trans ht)
  | storeRegs x => exact accessBlock_withUnread (e := d) (by exact id) ((exec_storeRegs x s).symm.trans ht)
  | loadRegs x => exact accessBlock_withUnread (e := d) (by exact id) ((exec_loadRegs x s).symm.trans ht)
  | seImm | sneImm | seReg | sneReg =>
    cases ht
    exact skipIf_answersUnread _
  | rnd x nn =>
    cases ht
    refine ⟨d, ?_, id⟩
    show Host.Outcome.next (State.advance (State.setV (s.withUnread w n d h) x (h.rand &&& nn))) = _
    rw [hrand rfl]
    rfl
  | _ =>
    cases ht
    exact ⟨d, rfl, id⟩

end

theorem exec_host {i : Instr} {s t : State} (h : exec i s = .next t) : t.host = s.host :=
  exec_sameBut h .host (by cases i <;> simp [writtenParts])

/-- With another host's side whose inputs agree where the instruction reads them, it does the same. -/
theorem exec_withHost {i : Instr} {s t : State} (ht : exec i s = .next t) (h : HostSide)
    (hkeys : readsKeys i = true → h.keys = s.host.keys) (hrand : readsRand i = true → h.rand = s.host.rand) :
    exec i { s with host := h } = .next { t with host := h } := by
  obtain ⟨e, he, hdirty⟩ :=
    exec_withUnread (w := s.opcode) (n := s.cycles) (d := s.dirty) (h := h) ht hkeys hrand
  have hrest : t.withUnread s.opcode s.cycles t.dirty h = { t with host := h } := by
    rw [← exec_opcode ht, ← exec_cycles ht]
    rfl
  rw [hdirty rfl, hrest] at he
  exact he

theorem sameBut_withUnread (t : State) (w : Word) (n : Nat) (d : Bool) :
    SameBut [.opcode, .cycles, .dirty] t (t.withUnread w n d t.host) := by
  intro p hp
  cases p with
  | opcode => simp at hp
  | cycles => simp at hp
  | dirty => simp at hp
  | V => exact fun _ => rfl
  | mem => exact fun _ => rfl
  | _ => rfl

/-- Settles O53: the three fields are among those that no instruction reads. -/
theorem hiddenStateDoesNotReachPrograms : Obligations.HiddenStateDoesNotReachPrograms := by
  intro i s t w n d ht
  obtain ⟨e, he, -⟩ := exec_withUnread (w := w) (n := n) (d := d) (h := s.host) ht (fun _ => rfl) fun _ => rfl
  refine ⟨t.withUnread w n e s.host, he, ?_⟩
  rw [← exec_host ht]
  exact sameBut_withUnread t w n e

/-! ### The key vector through the host's moves (70_reset_and_hazards.md R233, R235) -/

theorem move_keys {s t : State} {m : HostMove} (hm : ∀ keys, m ≠ .setKeys keys) (h : s.move m = .next t) :
    t.host.keys = s.host.keys := by
  cases m with
  | reset | supplyRand | clearDraw =>
    cases h
    rfl
  | setKeys keys => exact absurd rfl (hm keys)
  | loadRom rom =>
    obtain rfl | hload := move_loadRom_cases h
    · rfl
    · obtain ⟨-, rfl⟩ := loadRom_eq_ok hload
      rfl
  | step =>
    obtain ⟨u, -, rfl⟩ := requestStep_eq_next.mp h
    rfl

theorem moves_keys {ms : List HostMove} (hms : ∀ keys, .setKeys keys ∉ ms) {s t : State}
    (h : s.moves ms = .next t) : t.host.keys = s.host.keys := by
  induction ms generalizing s with
  | nil =>
    cases h
    rfl
  | cons m ms ih =>
    obtain ⟨u, hu, ht⟩ := moves_cons_eq_next.mp h
    have hm : ∀ keys, m ≠ .setKeys keys := fun keys hkeys => hms keys (hkeys ▸ List.mem_cons_self)
    exact (ih (fun keys hmem => hms keys (List.mem_cons_of_mem m hmem)) ht).trans (move_keys hm hu)

theorem sameBut_setKeys (s : State) (keys : BitVec 16) : SameBut [.host] s (s.setKeys keys) := by
  intro p hp
  cases p with
  | host => simp at hp
  | V => exact fun k => getV_setKeys s k keys
  | mem => exact fun a => congrArg (·.byteAt a) (setKeys_mem s keys)
  | _ => rfl

/-- Settles O52: an input is unread but by its readers, and no move but `set_keys` writes the vector. -/
theorem inputsReachOnlyTheirReaders : Obligations.InputsReachOnlyTheirReaders := by
  refine ⟨fun i s t ht => ⟨fun hno keys => ?_, fun hno b => ?_⟩, fun s keys => ?_, fun s t ms hms h => moves_keys hms h⟩
  · have hkeys := exec_withHost ht { s.host with keys := keys } (fun hreads => by simp [hno] at hreads) fun _ => rfl
    rw [State.setKeys, State.setKeys, exec_host ht]
    exact hkeys
  · have hrand := exec_withHost ht { s.host with rand := b } (fun _ => rfl) fun hreads => by simp [hno] at hreads
    rw [State.supplyRand, State.supplyRand, exec_host ht]
    exact hrand
  · exact ⟨_, rfl, rfl, sameBut_setKeys s keys⟩

/-! ### States at rest (70_reset_and_hazards.md R239) -/

/-- The word of a jump to an address below 4096 is the address with 1 in the high nibble. -/
theorem or_eq_wordNNN {a : Word} (ha : a.toNat ≤ 4094) : 0x1000 ||| a = wordNNN 0x1 (a.setWidth 12) := by
  have hlow : (a.setWidth 12).toNat = a.toNat := by
    rw [BitVec.toNat_setWidth]
    omega
  have happ : (wordNNN 0x1 (a.setWidth 12)).toNat = 1 <<< 12 ||| (a.setWidth 12).toNat := BitVec.toNat_append _ _
  apply BitVec.eq_of_toNat_eq
  rw [happ, hlow, BitVec.toNat_or]
  rfl

theorem addrWord_setWidth {a : Word} (ha : a.toNat ≤ 4094) : addrWord (a.setWidth 12) = a := by
  apply BitVec.eq_of_toNat_eq
  rw [toNat_addrWord, BitVec.toNat_setWidth]
  omega

/-- The step of a state at rest is the jump to where it is, counted and ticked. -/
theorem step_of_atRest {s : State} {a : Word} (h : s.AtRest a) :
    step s =
      .next (((s.clearOutputs.loadOpcode (0x1000 ||| a)).jump a).countCycle.timerTick.nextInputs) := by
  obtain ⟨hf, rfl, hpc, hword⟩ := h
  have hi : decode (0x1000 ||| s.pc) = .ok (.jp (s.pc.setWidth 12)) := by
    rw [or_eq_wordNNN hpc, decode_wordNNN_jp]
  have hexec := exec_jp (s.pc.setWidth 12) (s.clearOutputs.loadOpcode (0x1000 ||| s.pc))
  rw [addrWord_setWidth hpc] at hexec
  exact step_of_exec_completed hf ((fetchWord_eq s hpc).trans (congrArg some hword)) hi hexec hf rfl

/-- Settles O54: the jump to itself leaves `pc` where it was, and the rest of the step writes what is named. -/
theorem atRestStaysAtRest : Obligations.AtRestStaysAtRest := by
  intro s t a hrest h
  obtain rfl := Host.Outcome.next.inj ((step_of_atRest hrest).symm.trans h)
  obtain ⟨hf, rfl, hpc, hword⟩ := hrest
  have hjump : SameBut [] (s.clearOutputs.loadOpcode (0x1000 ||| s.pc))
      ((s.clearOutputs.loadOpcode (0x1000 ||| s.pc)).jump s.pc) := sameBut_of_eq rfl []
  refine ⟨⟨hf, rfl, hpc, hword⟩, rfl, rfl, ?_⟩
  exact ((((sameBut_clearOutputs_loadOpcode s _).trans hjump).trans (sameBut_countCycle_timerTick _)).trans
    (sameBut_nextInputs _)).mono (by simp)

/-! ### Reset and load (70_reset_and_hazards.md R230, R232) -/

theorem byteAt_hostReset (s : State) (a : Nat) : s.hostReset.mem.byteAt a = s.mem.unlisted a := rfl

/-- Settles O59: the reset state field by field; no cell is listed, so memory reads as FONT and 0. -/
theorem resetLeavesTheResetValues : Obligations.ResetLeavesTheResetValues := by
  intro s t h
  cases h
  refine ⟨fun k => ?_, rfl, rfl, rfl, rfl, fun k => ?_, rfl, rfl, fbCell_fbClear, rfl, rfl, rfl, rfl, fun a ha => ?_,
    fun a ha => ?_, rfl, rfl, rfl⟩
  · exact Vector.getElem_replicate k.isLt
  · exact Vector.getElem_replicate k.isLt
  · rw [byteAt_hostReset, Memory.unlisted, dif_pos ha]
  · rw [byteAt_hostReset, Memory.unlisted, dif_neg (Nat.not_lt.mpr ha)]

theorem loadRom_of_le {s : State} {rom : List Byte} (hopen : s.host.loadOpen = true) (hlen : rom.length ≤ 3584) :
    s.loadRom rom =
      .ok { s with mem := s.mem.writeBytes 512 rom, host := { s.host with loadOpen := false } } := by
  rw [State.loadRom, if_neg (by simp [hopen]), if_neg (Nat.not_lt.mpr hlen)]

theorem loadRom_of_gt {s : State} {rom : List Byte} (hopen : s.host.loadOpen = true) (hlen : rom.length > 3584) :
    s.loadRom rom = .error .romTooLarge := by
  rw [State.loadRom, if_neg (by simp [hopen]), if_pos hlen]

theorem sameBut_mem_host (s : State) {m : Memory} (hfont : m.font = s.mem.font) (h : HostSide) :
    SameBut [.mem, .host] s { s with mem := m, host := h } := by
  intro p hp
  cases p with
  | mem => simp at hp
  | host => simp at hp
  | V => exact fun _ => rfl
  | font => exact hfont
  | _ => rfl

/-- Settles O60: a load is a block write at 512, within memory exactly when the ROM has at most 3584 bytes. -/
theorem loadRomCopiesVerbatimOrNotAtAll : Obligations.LoadRomCopiesVerbatimOrNotAtAll := by
  intro s rom hwf hopen
  refine ⟨fun hlen => ?_, fun hlen => ⟨loadRom_of_gt hopen hlen, ?_⟩⟩
  · have hbyte := byteAt_writeBytes s.mem hwf 512 rom (by omega)
    refine ⟨_, loadRom_of_le hopen hlen, fun k hk => ?_, fun a ha => ?_, rfl, rfl, rfl,
      sameBut_mem_host s (font_writeBytes s.mem 512 rom) _⟩
    · rw [hbyte, if_pos (by omega), Nat.add_sub_cancel_left, List.getD_eq_getElem?_getD,
        List.getElem?_eq_getElem hk, Option.getD_some]
    · rw [hbyte, if_neg (by omega)]
  · simp only [State.move, loadRom_of_gt hopen hlen]

end Sys2Proof.Machine
end

section
/-!
PROOF. The rules of single instructions: the stack (40_flow.md; O18, O19, O21), the skips on registers and keys
(41_skip.md; O23, O24), the ALU (42_load_alu.md; O27 to O32), ADD I (43_index_memory.md; O34) and the delay timer and
the key wait (45_timer_key.md; O47, O49, O50).
-/
namespace Sys2Proof

theorem decode_wordXYN_family5_reject (x y : Reg) {n : Fin 16} (hn : n ≠ 0) :
    decode (wordXYN 0x5 x y n) = .error .family5 := by
  simp [decode, decodeXY0, hn]

theorem decode_wordXYN_family9_reject (x y : Reg) {n : Fin 16} (hn : n ≠ 0) :
    decode (wordXYN 0x9 x y n) = .error .family9 := by
  simp [decode, decodeXY0, hn]

/-! ### Bytes as numbers (42_load_alu.md R140) -/

theorem byte_toNat_sub (a b : Byte) : (a - b).toNat = (a.toNat + 256 - b.toNat) % 256 := by
  have hb : b.toNat < 256 := b.isLt
  have hsub : (a - b).toNat = (256 - b.toNat + a.toNat) % 256 := BitVec.toNat_sub a b
  omega

theorem byte_toNat_shr (b : Byte) : (b >>> 1).toNat = b.toNat / 2 := by
  rw [BitVec.toNat_ushiftRight, Nat.shiftRight_eq_div_pow, Nat.pow_one]

theorem byte_toNat_shl (b : Byte) : (b <<< 1).toNat = b.toNat * 2 % 256 := by
  rw [BitVec.toNat_shiftLeft, Nat.shiftLeft_eq, Nat.pow_one]

namespace Machine

theorem toNat_flagByte_decide (p : Prop) [Decidable p] : (flagByte (decide p)).toNat = if p then 1 else 0 := by
  by_cases hp : p
  · simp [hp, flagByte]
  · simp [hp, flagByte]

/-- The bit a right shift drops is the remainder (42_load_alu.md R149). -/
theorem toNat_flagByte_shrOut (b : Byte) : (flagByte (shrOut b)).toNat = b.toNat % 2 := by
  have hbit : shrOut b = decide (b.toNat % 2 = 1) := Nat.testBit_zero b.toNat
  rw [hbit, toNat_flagByte_decide]
  split <;> omega

/-- The bit a left shift drops is what passes 255 (42_load_alu.md R151). -/
theorem toNat_flagByte_shlOut (b : Byte) : (flagByte (shlOut b)).toNat = b.toNat / 128 := by
  have hb : b.toNat < 256 := b.isLt
  have hbit : shlOut b = decide (b.toNat / 2 ^ 7 % 2 = 1) := Nat.testBit_eq_decide_div_mod_eq
  rw [hbit, toNat_flagByte_decide]
  split <;> omega

/-! ### The call stack (40_flow.md R120, R122) -/

/-- Settles O18: CALL with room is a push and a jump. -/
theorem callPushesTheReturnAddress : Obligations.CallPushesTheReturnAddress := by
  intro nnn s hroom
  refine ⟨_, exec_call_of_room nnn s hroom, toNat_addrWord nnn, rfl, ?_, fun k hk => ?_, ?_⟩
  · exact Vector.getElem_set_self hroom
  · exact Vector.getElem_set_ne hroom k.isLt (Ne.symm hk)
  · exact ((sameBut_stack_sp s _ _).trans (sameBut_jump _ _)).mono (by simp)

/-- Settles O19: RET with an address stacked is a pop and a jump. -/
theorem returnPopsThePc : Obligations.ReturnPopsThePc := by
  intro s hpos
  exact ⟨_, exec_ret_of_pos s hpos, rfl, rfl, ((sameBut_sp s _).trans (sameBut_jump _ _)).mono (by simp)⟩

/-- A part written back to its old value is a part unchanged. -/
theorem SameBut.of_same {l : List Part} {s t : State} {p : Part} (h : SameBut (p :: l) s t) (hp : p.Same s t) :
    SameBut l s t := by
  intro q hq
  by_cases hqp : q = p
  · rw [hqp]
    exact hp
  · exact h q fun hmem => (List.mem_cons.mp hmem).elim hqp hq

/-- Settles O21: the pop finds the address that the push put into the slot, and leaves the depth as before it. -/
theorem returnAfterCallResumesAfterIt : Obligations.ReturnAfterCallResumesAfterIt := by
  intro nnn s t hroom h
  obtain rfl := Host.Outcome.next.inj ((exec_call_of_room nnn s hroom).symm.trans h)
  refine ⟨_, exec_ret_of_pos _ (Nat.succ_pos s.sp.val), ?_, rfl, fun k hk => ?_, ?_⟩
  · exact Vector.getElem_set_self hroom
  · exact Vector.getElem_set_ne hroom k.isLt (Nat.ne_of_gt hk)
  · refine SameBut.of_same (p := .sp) ?_ rfl
    exact ((((sameBut_stack_sp s _ _).trans (sameBut_jump _ _)).trans (sameBut_sp _ _)).trans
      (sameBut_jump _ _)).mono (by simp)

/-! ### Skips (41_skip.md R133 to R136) -/

theorem exec_seReg (x y : Reg) (s : State) :
    exec (.seReg x y) s = .next (s.skipIf (s.getV x == s.getV y)) := rfl

theorem exec_sneReg (x y : Reg) (s : State) :
    exec (.sneReg x y) s = .next (s.skipIf (s.getV x != s.getV y)) := rfl

/-- Settles O23: SE and SNE of two registers are skips on the comparison's Boolean. -/
theorem registerSkipsCompare : Obligations.RegisterSkipsCompare := by
  intro x y
  refine ⟨decode_wordXYN_seReg x y, decode_wordXYN_sneReg x y,
    fun n hn => ⟨decode_wordXYN_family5_reject x y hn, decode_wordXYN_family9_reject x y hn⟩, fun s => ⟨?_, ?_⟩⟩
  · exact completesSkipping_of_exec_eq_skipIf (exec_seReg x y s) beq_iff_eq
  · exact completesSkipping_of_exec_eq_skipIf (exec_sneReg x y s) bne_iff_ne

/-- Settles O24: with an index in range the skip is on the key's bit; above it the fault table's row applies. -/
theorem keySkipsSampleTheKeyVector : Obligations.KeySkipsSampleTheKeyVector := by
  intro x s
  refine ⟨fun hle => ⟨?_, ?_⟩, fun hgt => ⟨?_, ?_⟩⟩
  · exact completesSkipping_of_exec_eq_skipIf ((exec_skp x s).trans (skipOnKey_of_le _ hle)) Iff.rfl
  · exact completesSkipping_of_exec_eq_skipIf ((exec_sknp x s).trans (skipOnKey_of_le _ hle))
      (iff_of_eq (Bool.not_eq_true' _))
  · exact latchesOnly_of_faultsWith ⟨hgt, rfl, rfl⟩
  · exact latchesOnly_of_faultsWith ⟨hgt, rfl, rfl⟩

/-! ### The ALU (42_load_alu.md R143 to R152) -/

/-- Settles O27: each of the four is a write of one register. -/
theorem copyAndLogicWriteOneRegister : Obligations.CopyAndLogicWriteOneRegister :=
  fun _ _ _ => ⟨completesWriting_of_exec_eq_setV rfl, completesWriting_of_exec_eq_setV rfl,
    completesWriting_of_exec_eq_setV rfl, completesWriting_of_exec_eq_setV rfl⟩

/-- Settles O32: RND is a write of one register. -/
theorem randomByteIsMasked : Obligations.RandomByteIsMasked :=
  fun _ _ _ => completesWriting_of_exec_eq_setV rfl

theorem SameRegsBut.trans {l m : List Reg} {s t u : State} (hst : SameRegsBut l s t) (htu : SameRegsBut m t u) :
    SameRegsBut (l ++ m) s u := by
  intro k hk
  rw [List.mem_append, not_or] at hk
  exact (htu k hk.2).trans (hst k hk.1)

theorem sameRegsBut_setFlag (s : State) (c : Bool) : SameRegsBut [15] s (s.setFlag c) :=
  sameRegsBut_setV s 15 (flagByte c)

/-- The flag is the last write, so it is what register 15 holds, and what another register holds is the result. -/
theorem completesWithFlag_of_exec {i : Instr} {s : State} {x : Reg} {b : Byte} {c : Bool} {r flag : Nat}
    (h : exec i s = .next ((s.setV x b).setFlag c).advance) (hr : b.toNat = r) (hflag : (flagByte c).toNat = flag) :
    CompletesWithFlag i s x r flag := by
  refine ⟨_, h, fun hx => ?_, ?_, rfl, ?_, ?_⟩
  · rw [getV_advance, getV_setFlag, if_neg hx, getV_setV, if_pos rfl, hr]
  · rw [getV_advance, getV_setFlag, if_pos rfl, hflag]
  · exact (sameRegsBut_setV s x b).trans (sameRegsBut_setFlag _ c)
  · exact (((sameBut_setV s x b).trans (sameBut_setFlag _ c)).trans (sameBut_advance _)).mono (by simp)

/-- Settles O28: the carry says whether the sum exceeds 255. -/
theorem addRegistersSetsCarry : Obligations.AddRegistersSetsCarry :=
  fun x y s => completesWithFlag_of_exec rfl (BitVec.toNat_add (s.getV x) (s.getV y)) (toNat_flagByte_decide _)

/-- Settles O29: the flag says whether the minuend is at least the subtrahend. -/
theorem subtractionsSetNotBorrow : Obligations.SubtractionsSetNotBorrow :=
  fun x y s =>
    ⟨completesWithFlag_of_exec rfl (byte_toNat_sub (s.getV x) (s.getV y)) (toNat_flagByte_decide _),
      completesWithFlag_of_exec rfl (byte_toNat_sub (s.getV y) (s.getV x)) (toNat_flagByte_decide _)⟩

/-- A shift writes its result to two registers and then the flag. -/
theorem completes_of_exec_shift {i : Instr} {s : State} {x y : Reg} {b : Byte} {c : Bool} {r flag : Nat}
    (h : exec i s = .next (((s.setV y b).setV x b).setFlag c).advance) (hr : b.toNat = r)
    (hflag : (flagByte c).toNat = flag) :
    ∃ t, exec i s = .next t ∧ (x ≠ 15 → (t.getV x).toNat = r) ∧ (y ≠ 15 → (t.getV y).toNat = r) ∧
      (t.getV 15).toNat = flag ∧ t.pc = s.pc + 2 ∧ SameRegsBut [x, y, 15] s t ∧ SameBut [.V, .pc] s t := by
  refine ⟨_, h, fun hx => ?_, fun hy => ?_, ?_, rfl, fun k hk => ?_, ?_⟩
  · rw [getV_advance, getV_setFlag, if_neg hx, getV_setV, if_pos rfl, hr]
  · rw [getV_advance, getV_setFlag, if_neg hy, getV_setV, getV_setV, if_pos rfl, ite_self, hr]
  · rw [getV_advance, getV_setFlag, if_pos rfl, hflag]
  · have hregs := ((sameRegsBut_setV s y b).trans (sameRegsBut_setV _ x b)).trans (sameRegsBut_setFlag _ c)
    exact hregs k (by simpa [and_left_comm] using hk)
  · exact ((((sameBut_setV s y b).trans (sameBut_setV _ x b)).trans (sameBut_setFlag _ c)).trans
      (sameBut_advance _)).mono (by simp)

/-- Settles O30: SHR halves, and the flag is the remainder. -/
theorem shiftRightWritesBothRegisters : Obligations.ShiftRightWritesBothRegisters :=
  fun x y s => completes_of_exec_shift (i := .shr x y) rfl (byte_toNat_shr (s.getV y)) (toNat_flagByte_shrOut _)

/-- Settles O31: SHL doubles modulo 256, and the flag is what passes 255. -/
theorem shiftLeftWritesBothRegisters : Obligations.ShiftLeftWritesBothRegisters :=
  fun x y s => completes_of_exec_shift (i := .shl x y) rfl (byte_toNat_shl (s.getV y)) (toNat_flagByte_shlOut _)

/-- Settles O34: ADD I is a write of a 16-bit sum to `I` (43_index_memory.md R161). -/
theorem addToAddressRegisterWraps : Obligations.AddToAddressRegisterWraps := by
  intro x s
  have hsum : (s.I + (s.getV x).toWord).toNat = (s.I.toNat + (s.getV x).toNat) % 65536 := by
    rw [BitVec.toNat_add, toNat_toWord]
  rw [← hsum]
  exact completesSettingI_of_exec_eq_setI rfl

/-! ### The delay timer (45_timer_key.md R181) -/

theorem exec_ldDTVx (x : Reg) (s : State) : exec (.ldDTVx x) s = .next (s.setDt (s.getV x)).advance := rfl

/-- Settles O47: LD DT is a write of `dt`, and the tick of its step comes after it. -/
theorem setDelayTimerThenTick : Obligations.SetDelayTimerThenTick := by
  intro x
  refine ⟨fun s => ⟨_, exec_ldDTVx x s, rfl, rfl, (sameBut_setDt s _).trans (sameBut_advance _)⟩,
    fun s w hs hw hi => ?_⟩
  exact ⟨_, step_of_exec_completed hs hw hi (exec_ldDTVx x _) hs rfl, tickDown_toNat (s.getV x)⟩

/-! ### The key wait (45_timer_key.md R183) -/

theorem lowestKey_of_ne_zero {keys : BitVec 16} (h : keys ≠ 0) : ∃ k, lowestKey keys = some k :=
  Option.ne_none_iff_exists'.mp (mt (lowestKey_none keys).mp h)

theorem toNat_getV_setV_key (s : State) (x : Reg) {k : Nat} (hk : k < 16) :
    ((s.setV x (BitVec.ofNat 8 k)).getV x).toNat = k := by
  rw [getV_setV, if_pos rfl, BitVec.toNat_ofNat, Nat.mod_eq_of_lt (by omega)]

/-- Settles O49: with a key pressed the instruction is a write of the lowest one's index. -/
theorem keyWaitTakesTheLowestKey : Obligations.KeyWaitTakesTheLowestKey := by
  intro x s hkeys
  obtain ⟨k, hk⟩ := lowestKey_of_ne_zero hkeys
  obtain ⟨hlt, hdown, hlower⟩ := lowestKey_some _ k hk
  have hv : ((s.setV x (BitVec.ofNat 8 k)).advance.getV x).toNat = k := toNat_getV_setV_key s x hlt
  refine ⟨_, exec_ldVxK_of_key x s hk, ?_, ?_, ?_, rfl, rfl, sameRegsBut_setV s x _, ?_⟩
  · rw [hv]
    exact hlt
  · rw [hv]
    exact hdown
  · rw [hv]
    exact hlower
  · exact (sameBut_setV s x _).trans (sameBut_advance _)

/-- A step that holds. -/
theorem step_ldVxK_of_noKey {x : Reg} {s : State} {w : Word} (hs : s.fault = .none) (hw : s.fetchWord = some w)
    (hi : decode w = .ok (.ldVxK x)) (hkeys : s.host.keys = 0) :
    step s = .next (s.clearOutputs.loadOpcode w).hold.nextInputs := by
  have hexec := exec_ldVxK_of_noKey x (s.clearOutputs.loadOpcode w) ((lowestKey_none _).mpr hkeys)
  rw [step_of_exec hs hw hi hexec, finish_stopped _ (.inr rfl)]

/-- A step that takes a key. -/
theorem step_ldVxK_of_key {x : Reg} {s : State} {w : Word} {k : Nat} (hs : s.fault = .none)
    (hw : s.fetchWord = some w) (hi : decode w = .ok (.ldVxK x)) (hk : lowestKey s.host.keys = some k) :
    step s =
      .next ((s.clearOutputs.loadOpcode w).setV x (BitVec.ofNat 8 k)).advance.countCycle.timerTick.nextInputs :=
  step_of_exec_completed hs hw hi (exec_ldVxK_of_key x _ hk) hs rfl

/-- Settles O50: the held state differs from the one before it in nothing that the next step reads but the keys, so that
step fetches the same word and takes the key. -/
theorem keyWaitHoldsUntilAKey : Obligations.KeyWaitHoldsUntilAKey := by
  intro x s w hs hw hi hkeys
  refine ⟨_, step_ldVxK_of_noKey hs hw hi hkeys, rfl, rfl, rfl, rfl, ?_, fun keys hne => ?_⟩
  · exact (((sameBut_clearOutputs_loadOpcode s w).trans (sameBut_hold _)).trans (sameBut_nextInputs _)).mono (by simp)
  · obtain ⟨k, hk⟩ := lowestKey_of_ne_zero hne
    obtain ⟨hlt, hdown, -⟩ := lowestKey_some keys k hk
    have hstep := step_ldVxK_of_key (s := (s.clearOutputs.loadOpcode w).hold.nextInputs.setKeys keys) hs hw hi hk
    have hv := toNat_getV_setV_key ((s.clearOutputs.loadOpcode w).hold.nextInputs.setKeys keys) x hlt
    refine ⟨_, hstep, by simp, ?_, by simp, by simp, by simp [tickDown_toNat], by simp [tickDown_toNat]⟩
    exact (congrArg keys.getLsbD hv).trans hdown

end Machine
end Sys2Proof
end

section
/-!
PROOF. The transfers between registers and memory (43_index_memory.md R163, R165, R166; 20_memory.md R73; O36 to O38,
O40, O41): with the block in memory each is one block write or one block read at `I`.
-/
namespace Sys2Proof.Machine

section
variable {s : State}

theorem exec_storeRegs_of_block (x : Reg) (hI : s.I.toNat + 15 ≤ 4095) :
    exec (.storeRegs x) s = .next ((s.storeAtI s.allV).setI (s.I + 16)).advance :=
  accessBlock_of_exists (n := 16) _ (.inr (by omega))

theorem exec_loadRegs_of_block (x : Reg) (hI : s.I.toNat + 15 ≤ 4095) :
    exec (.loadRegs x) s = .next (s.loadAllV.setI (s.I + 16)).advance :=
  accessBlock_of_exists (n := 16) _ (.inr (by omega))

theorem exec_ldB_of_block (x : Reg) (hI : s.I.toNat + 2 ≤ 4095) :
    exec (.ldB x) s = .next (s.storeAtI (decimalDigits (s.getV x))).advance :=
  accessBlock_of_exists (n := 3) _ (.inr (by omega))

theorem toNat_I_add_16 (hI : s.I.toNat + 15 ≤ 4095) : (s.I + 16).toNat = s.I.toNat + 16 := by
  have hadd : (s.I + 16).toNat = (s.I.toNat + 16) % 65536 := BitVec.toNat_add s.I 16
  omega

/-! ### A block store at `I` (20_memory.md R67, R68) -/

section
variable (hwf : s.mem.wf = true) {bs : List Byte} (hbs : s.I.toNat + bs.length ≤ 4096)
include hwf hbs

theorem byteAt_storeAtI_add {k : Nat} (hk : k < bs.length) :
    (s.storeAtI bs).mem.byteAt (s.I.toNat + k) = bs.getD k 0 := by
  rw [storeAtI_mem, byteAt_writeBytes s.mem hwf _ _ hbs, if_pos (by omega), Nat.add_sub_cancel_left]

theorem byteAt_storeAtI_of_outside {a : Nat} (ha : a < s.I.toNat ∨ s.I.toNat + bs.length ≤ a) :
    (s.storeAtI bs).mem.byteAt a = s.mem.byteAt a := by
  rw [storeAtI_mem, byteAt_writeBytes s.mem hwf _ _ hbs, if_neg (by omega)]

end

theorem allV_getD (s : State) (k : Reg) : s.allV.getD k.val 0 = s.getV k := by
  rw [List.getD_eq_getElem?_getD, allV_getElem, Option.getD_some]

/-- The registers stand in memory from `I` on once they are stored (43_index_memory.md R165). -/
theorem byteAt_storeAtI_allV (hwf : s.mem.wf = true) (hI : s.I.toNat + 15 ≤ 4095) (k : Reg) :
    (s.storeAtI s.allV).mem.byteAt (s.I.toNat + k.val) = s.getV k := by
  have hlen : s.allV.length = 16 := allV_length s
  rw [byteAt_storeAtI_add hwf (by omega) (by omega), allV_getD]

/-! ### The instructions -/

theorem toNat_ofNat_byte {n : Nat} (hn : n < 256) : (BitVec.ofNat 8 n).toNat = n := by
  rw [BitVec.toNat_ofNat, Nat.mod_eq_of_lt hn]

end

/-- Settles O36: LD B is a store of the three digits, each of which fits in a byte. -/
theorem decimalDigitsAreStored : Obligations.DecimalDigitsAreStored := by
  intro x s hwf hI
  have hv : (s.getV x).toNat < 256 := (s.getV x).isLt
  have hlen : (decimalDigits (s.getV x)).length = 3 := rfl
  have hblock : s.I.toNat + (decimalDigits (s.getV x)).length ≤ 4096 := by omega
  have hdigit : ∀ k, k < 3 → (s.storeAtI (decimalDigits (s.getV x))).mem.byteAt (s.I.toNat + k) =
      (decimalDigits (s.getV x)).getD k 0 := fun k hk => byteAt_storeAtI_add hwf hblock (by omega)
  refine ⟨_, exec_ldB_of_block x hI, ?_, ?_, ?_, fun a ha => ?_, rfl, ?_⟩
  · exact (congrArg BitVec.toNat (hdigit 0 (by decide))).trans (toNat_ofNat_byte (by omega))
  · exact (congrArg BitVec.toNat (hdigit 1 (by decide))).trans (toNat_ofNat_byte (by omega))
  · exact (congrArg BitVec.toNat (hdigit 2 (by decide))).trans (toNat_ofNat_byte (by omega))
  · exact byteAt_storeAtI_of_outside hwf hblock (by omega)
  · exact (sameBut_storeAtI s _).trans (sameBut_advance _)

/-- Settles O37: LD [I] is a store of all registers. -/
theorem storeRegistersStoresAllSixteen : Obligations.StoreRegistersStoresAllSixteen := by
  intro x s hwf hI
  have hlen : s.allV.length = 16 := allV_length s
  refine ⟨_, exec_storeRegs_of_block x hI, byteAt_storeAtI_allV hwf hI, fun a ha => ?_, toNat_I_add_16 hI, rfl, ?_⟩
  · exact byteAt_storeAtI_of_outside hwf (by omega) (by omega)
  · exact ((sameBut_storeAtI s _).trans (sameBut_setI _ _)).trans (sameBut_advance _)

/-- Settles O38: LD Vx, [I] is a load of all registers. -/
theorem loadRegistersLoadsAllSixteen : Obligations.LoadRegistersLoadsAllSixteen := by
  intro x s hI
  refine ⟨_, exec_loadRegs_of_block x hI, getV_loadAllV s, toNat_I_add_16 hI, rfl, ?_⟩
  exact ((sameBut_loadAllV s).trans (sameBut_setI _ _)).trans (sameBut_advance _)

/-- Settles O40: the load reads from the same `I` what the store put there, which the registers in between do not
reach. -/
theorem loadAfterStoreRestoresRegisters : Obligations.LoadAfterStoreRestoresRegisters := by
  intro x y s t scrambled hwf hI h
  obtain rfl := Host.Outcome.next.inj ((exec_storeRegs_of_block x hI).symm.trans h)
  refine ⟨_, exec_loadRegs_of_block y hI, fun k => ?_, rfl⟩
  exact (getV_loadAllV _ k).trans (byteAt_storeAtI_allV hwf hI k)

/-- Settles O41: the next step fetches from `I`, where the first two registers have been stored. -/
theorem storeIsSeenByTheNextFetch : Obligations.StoreIsSeenByTheNextFetch := by
  intro s w x hs hw hi hwf hIpc hI
  have hexec := exec_storeRegs_of_block (s := s.clearOutputs.loadOpcode w) x hI
  refine ⟨_, step_of_exec_completed hs hw hi hexec hs rfl, ?_⟩
  have hbyte : ∀ k : Reg, (s.storeAtI s.allV).mem.byteAt ((s.pc + 2).toNat + k.val) = s.getV k := by
    rw [← hIpc]
    exact byteAt_storeAtI_allV hwf hI
  have hpc : (s.pc + 2).toNat ≤ 4094 := by
    rw [← hIpc]
    omega
  refine ⟨Word.ofBytes (s.getV 0) (s.getV 1), ?_, toNat_ofBytes _ _⟩
  rw [← hbyte 0, ← hbyte 1]
  exact fetchWord_eq _ hpc

end Sys2Proof.Machine
end

section
/-!
PROOF. The cells a draw toggles (44_display.md R171, R173; O43, O45). A draw's pixels lie on cells of their own, as
for the collision bit: a cell under a pixel is toggled by that pixel's bit alone, and a cell under none is left alone.
-/
namespace Sys2Proof.Machine

/-! ### A cell under a pixel -/

theorem fbCell_drawPixel_self (x0 y : Nat) (b : Byte) (p : Framebuffer × Bool) (j : Nat) {y' x' : Nat}
    (hy : y' % 32 = y % 32) (hx : x' % 64 = (x0 + j) % 64) :
    fbCell (drawPixel x0 y b p j).1 y' x' = (fbCell p.1 y' x' ^^ b.getLsbD (7 - j)) := by
  unfold drawPixel
  cases b.getLsbD (7 - j) with
  | true => rw [if_pos rfl, fbCell_fbToggle, if_pos ⟨hy, hx⟩, Bool.xor_true]
  | false => rw [if_neg Bool.false_ne_true, Bool.xor_false]

/-- Up to 64 pixels of a row lie on columns of their own. -/
theorem fbCell_pixels_at (x0 y : Nat) (b : Byte) (p : Framebuffer × Bool) {m j : Nat} (hm : m ≤ 64) (hj : j < m)
    {y' x' : Nat} (hy : y' % 32 = y % 32) (hx : x' % 64 = (x0 + j) % 64) :
    fbCell ((List.range m).foldl (drawPixel x0 y b) p).1 y' x' = (fbCell p.1 y' x' ^^ b.getLsbD (7 - j)) := by
  induction m with
  | zero => exact absurd hj (Nat.not_lt_zero j)
  | succ m ih =>
    rw [List.range_succ, List.foldl_append, List.foldl_cons, List.foldl_nil]
    by_cases hlast : j = m
    · subst hlast
      rw [fbCell_drawPixel_self x0 y b _ j hy hx, fbCell_pixels_of_ne x0 y b p j fun k hk => by omega]
    · rw [fbCell_drawPixel_of_ne x0 y b _ m (by omega), ih (by omega) (by omega)]

/-! ### A cell under no pixel -/

theorem fbCell_drawRows_of_ne (x0 y : Nat) (bs : List Byte) (p : Framebuffer × Bool) {y' x' : Nat}
    (hne : ∀ r, r < bs.length → ∀ j, j < 8 → ¬ (y' % 32 = (y + r) % 32 ∧ x' % 64 = (x0 + j) % 64)) :
    fbCell (drawRows x0 y bs p).1 y' x' = fbCell p.1 y' x' := by
  induction bs generalizing y p with
  | nil => rfl
  | cons b bs ih =>
    rw [drawRows, ih (y + 1) (drawRow x0 y b p) fun r hr j hj => ?_]
    · exact fbCell_pixels_of_ne x0 y b p 8 fun j hj => hne 0 (Nat.zero_lt_succ _) j hj
    · rw [Nat.add_right_comm, Nat.add_assoc]
      exact hne (r + 1) (Nat.succ_lt_succ hr) j hj

/-! ### A cell under a pixel of the rows -/

/-- Up to 32 rows are rows of their own. -/
theorem fbCell_drawRows_at (x0 y : Nat) (bs : List Byte) (p : Framebuffer × Bool) (hlen : bs.length ≤ 32) {r j : Nat}
    (hr : r < bs.length) (hj : j < 8) {y' x' : Nat} (hy : y' % 32 = (y + r) % 32) (hx : x' % 64 = (x0 + j) % 64) :
    fbCell (drawRows x0 y bs p).1 y' x' = (fbCell p.1 y' x' ^^ (bs.getD r 0).getLsbD (7 - j)) := by
  induction bs generalizing y p r with
  | nil => exact absurd hr (Nat.not_lt_zero r)
  | cons b bs ih =>
    rw [List.length_cons] at hlen hr
    rw [drawRows]
    cases r with
    | zero =>
      rw [fbCell_drawRows_of_ne x0 (y + 1) bs _ fun k hk i hi => by omega, List.getD_cons_zero]
      exact fbCell_pixels_at x0 y b p (by decide) hj hy hx
    | succ r =>
      rw [ih (y + 1) (drawRow x0 y b p) (r := r) (by omega) (by omega) (by omega),
        fbCell_drawRow_of_ne x0 y b p x' (by omega), List.getD_cons_succ]

/-! ### The instruction -/

/-- A draw of up to 32 rows toggles the cells its sprite covers and no other. -/
theorem fbCell_draw (s : State) (x0 y0 : Nat) {n : Nat} (hn : n ≤ 32) {b a : Nat} (hb : b < 32) (ha : a < 64) :
    (s.SpriteCovers x0 y0 n b a → fbCell (s.draw x0 y0 (s.spriteBytes n)).fb b a = !fbCell s.fb b a) ∧
      (¬ s.SpriteCovers x0 y0 n b a → fbCell (s.draw x0 y0 (s.spriteBytes n)).fb b a = fbCell s.fb b a) := by
  have hlen : (s.spriteBytes n).length = n := readBytes_length s.mem s.I.toNat n
  have hat : ∀ r, r < n → ∀ j, j < 8 → b % 32 = (y0 + r) % 32 → a % 64 = (x0 + j) % 64 →
      fbCell (s.draw x0 y0 (s.spriteBytes n)).fb b a =
        (fbCell s.fb b a ^^ (s.mem.byteAt (s.I.toNat + r)).getLsbD (7 - j)) := by
    intro r hr j hj hy hx
    rw [draw_fb, fbCell_drawRows_at x0 y0 _ _ (by omega) (by omega) hj hy hx, State.spriteBytes,
      readBytes_getD s.mem s.I.toNat n r hr]
  refine ⟨fun ⟨r, hr, j, hj, hy, hx, hbit⟩ => ?_, fun hcov => ?_⟩
  · rw [hat r hr j hj (by omega) (by omega), hbit, Bool.xor_true]
  · by_cases hpos : ∃ r, r < n ∧ ∃ j, j < 8 ∧ b % 32 = (y0 + r) % 32 ∧ a % 64 = (x0 + j) % 64
    · obtain ⟨r, hr, j, hj, hy, hx⟩ := hpos
      have hbit : (s.mem.byteAt (s.I.toNat + r)).getLsbD (7 - j) = false :=
        Bool.eq_false_iff.mpr fun hbit => hcov ⟨r, hr, j, hj, by omega, by omega, hbit⟩
      rw [hat r hr j hj hy hx, hbit, Bool.xor_false]
    · exact fbCell_drawRows_of_ne x0 y0 _ _ fun r hr j hj hyx => hpos ⟨r, hlen ▸ hr, j, hj, hyx⟩

/-- Settles O43: DRW with its sprite in memory is a draw. -/
theorem drawTogglesTheCoveredCells : Obligations.DrawTogglesTheCoveredCells := by
  intro x y n s hblock
  refine ⟨_, exec_drw_of_blockExists x y n s hblock, fun b a hb ha => fbCell_draw s _ _ (by omega) hb ha, rfl, rfl,
    fun k hk => ?_, ?_⟩
  · rw [getV_advance, getV_draw, if_neg (List.ne_of_not_mem_cons hk)]
  · exact ((sameBut_draw s _ _ _).trans (sameBut_advance _)).mono (by simp)

/-- A second draw of the same sprite at the same place toggles the same cells again (44_display.md R173). -/
theorem fbCell_draw_draw {s s' : State} {x0 y0 n : Nat} (hn : n ≤ 32) (hI : s'.I = s.I) (hmem : s'.mem = s.mem)
    (hfb : s'.fb = (s.draw x0 y0 (s.spriteBytes n)).fb) {b a : Nat} (hb : b < 32) (ha : a < 64) :
    fbCell (s'.draw x0 y0 (s'.spriteBytes n)).fb b a = fbCell s.fb b a := by
  have hcovers : s'.SpriteCovers x0 y0 n b a ↔ s.SpriteCovers x0 y0 n b a := by
    unfold State.SpriteCovers
    rw [hI, hmem]
  obtain ⟨htoggle, hkeep⟩ := fbCell_draw s x0 y0 hn hb ha
  obtain ⟨htoggle', hkeep'⟩ := fbCell_draw s' x0 y0 hn hb ha
  by_cases hcov : s.SpriteCovers x0 y0 n b a
  · rw [htoggle' (hcovers.mpr hcov), hfb, htoggle hcov, Bool.not_not]
  · rw [hkeep' (mt hcovers.mp hcov), hfb, hkeep hcov]

/-- Settles O45: the first draw leaves the sprite, its place and the registers put back as they were. -/
theorem drawingTwiceRestoresTheFramebuffer : Obligations.DrawingTwiceRestoresTheFramebuffer := by
  intro x y n s t hblock h
  have ht := Host.Outcome.next.inj ((exec_drw_of_blockExists x y n s hblock).symm.trans h)
  have hI : t.I = s.I := by rw [← ht, advance_I, draw_I]
  have hmem : t.mem = s.mem := by rw [← ht, advance_mem, draw_mem]
  have hfb : t.fb = (s.draw (s.getV x).toNat (s.getV y).toNat (s.spriteBytes n.val)).fb := by rw [← ht, advance_fb]
  have hblock' : State.BlockExists { t with V := s.V } n.val := by
    unfold State.BlockExists
    rw [hI]
    exact hblock
  exact ⟨_, exec_drw_of_blockExists x y n _ hblock',
    fun b a hb ha => fbCell_draw_draw (s' := { t with V := s.V }) (by omega) hI hmem hfb hb ha⟩

end Sys2Proof.Machine
end
